-- ==== Sys2Proof/Word.lean ====
section
/-! DEFINITION. The words of the machine: unit clock readings, characters of the serial lines, and text.
They are plain types with no arithmetic of their own (spec/00_scope.md 0.6.4, spec/10_formats_and_signals.md). -/

namespace Sys2Proof

/-- A reading of the unit clock: 32 bits of milliseconds, wrapping (0.6.4). -/
abbrev Reading := BitVec 32

/-- One character of a serial line: eight data bits (Chapter 10). -/
abbrev Byte := BitVec 8

/-- Text as the part shows it, one element a character (0.6.7). -/
abbrev Text := List Char

/-- A symbol code as a command, message or request carries it, without the spaces that fill its five places
(R191). It need not be well formed: the rule of R2 is a check of its own. -/
abbrev Code := List Char

end Sys2Proof
end

