-- ==== Sys2Proof/Syntax.lean ====
section
/-! DEFINITION. The commands of the controller: one constructor of `Instr` for each row of spec/opcode_table.json, the
operands of the loop's commands and of the market messages as Chapter 10 lays them out, and nothing of their meaning.
An operand is a number as its field carries it; whether it is in range is the meaning's business (R10, R33, R144). -/

namespace Sys2Proof

/-- The two tapes (Table 0-5). -/
inductive TapeId where
  | a
  | b
  deriving DecidableEq, Repr

/-- What arrives on FEED IN at the end of a stop bit: a flag (mark bit set), a data character, or a character whose
stop bit is not found (R190). -/
inductive Arrival where
  | flag
  | data (value : Byte)
  | unreadable
  deriving DecidableEq, Repr

/-- The monitor settings T, H, n and k as a command carries them or as a record stores them (R10, Table 3-1). -/
structure MonSettings where
  t : Nat
  h : Nat
  n : Nat
  k : Nat
  deriving DecidableEq, Repr

/-- The arguments of LOAD SYMBOL (section 1.3, Table 10-3). Cells are panel and cell, in slot order; a slot that
holds no cell (R192) is not in the list. -/
structure LoadArgs where
  code : Code
  record : Nat
  grid : Nat
  maskA : Bool
  maskB : Bool
  cells : List (Nat × Nat)
  settings : MonSettings
  prevClose : Option Nat
  deriving DecidableEq, Repr

/-- One entry of LOAD WATCH, or the levels and flag of WATCH ADD with the record looked up (R149, R151). -/
structure WatchArgs where
  record : Nat
  above : Option Nat
  below : Option Nat
  move : Bool
  deriving DecidableEq, Repr

/-- A command of the loop with its arguments, in the order of Table 9-1 (R190 numbers them 1 to 23). -/
inductive Command where
  | ackRestart
  | restartKeep
  | restartClear
  | loadSymbol (args : LoadArgs)
  | addAlias (code : Code) (record : Nat)
  | dropAlias (code : Code)
  | dropSymbol (code : Code)
  | setCell (panel cell : Nat) (record : Option Nat)
  | setMonitor (record : Nat) (settings : MonSettings)
  | loadWatch (station : Nat) (entries : List WatchArgs)
  | clearWatch (station : Nat)
  | setStation (station mode interval : Nat)
  | setParameter (ident value : Nat)
  | pauseBoard
  | continueBoard
  | restorePanel (panel : Nat)
  | queryStatus (part : Nat)
  | queryRecord (part record : Nat)
  | queryStation (part station : Nat)
  | queryWatch (part station : Nat)
  | queryCounters (part : Nat)
  | clearCounters
  | assign (candidate : Nat)
  deriving DecidableEq, Repr

/-- A market message's content (Table 10-2), with every field as the message carries it: codes for condition, reason
and session value are the characters of R191 and Table 10-2, checked by R33 when the classifier takes the message. -/
inductive MarketMsg where
  | print (code : Code) (price volume condition : Nat)
  | quote (code : Code) (bid ask : Option (Nat × Nat))
  | cancel (code : Code) (sequence price volume : Nat)
  | halt (code : Code) (reason : Nat)
  | resume (code : Code)
  | figures (code : Code) (prevClose : Nat) (opening high low volume : Option Nat)
  | notice (text : Text)
  | dayStart
  | session (value : Nat)
  | time (hours minutes seconds : Nat)
  deriving DecidableEq, Repr

/-- One constructor for each row of spec/opcode_table.json. `addr` is the unit address character of a loop command
(R167). The other operands are the row's: an arriving character, a place, a record, a station, a panel answer, the characters
of a desk frame, absent where one cannot be read. -/
inductive Instr where
  -- resets and the unit manager
  | powerOn (straps : BitVec 6)
  | ackRestart (addr : Nat)
  | restartKeep (addr : Nat)
  | restartClear (addr : Nat)
  -- directory commands and their completions
  | loadSymbol (addr : Nat) (args : LoadArgs)
  | addAlias (addr : Nat) (code : Code) (record : Nat)
  | dropAlias (addr : Nat) (code : Code)
  | dropSymbol (addr : Nat) (code : Code)
  | loadSymbolCompletion
  | addAliasCompletion
  | dropAliasCompletion
  | dropSymbolCompletion
  -- the other commands
  | setCell (addr panel cell : Nat) (record : Option Nat)
  | setMonitor (addr record : Nat) (settings : MonSettings)
  | loadWatch (addr station : Nat) (entries : List WatchArgs)
  | clearWatch (addr station : Nat)
  | setStation (addr station mode interval : Nat)
  | setParameter (addr ident value : Nat)
  | pauseBoard (addr : Nat)
  | continueBoard (addr : Nat)
  | restorePanel (addr panel : Nat)
  | queryStatus (addr part : Nat)
  | queryRecord (addr part record : Nat)
  | queryStation (addr part station : Nat)
  | queryWatch (addr part station : Nat)
  | queryCounters (addr part : Nat)
  | clearCounters (addr : Nat)
  | assign (addr candidate : Nat)
  | unknownCommand (addr number : Nat) (body : List Byte)
  -- the feed loop and intake
  | feedMessageReceived (last : Byte)
  | framingFault (arrival : Arrival)
  | lossOfLockOnSilence
  | feedLost
  | feedOutFree
  | feedInQuiet
  | replyExpiry (position : Nat)
  | classifierTake
  -- the quote store
  | dayStartWalkStep
  | dayStartWalkCompletion
  | floorTimeAdvance
  | holdExpiry (record : Nat)
  -- tapes
  | ribbonCompletion (tape : TapeId)
  -- boards
  | blockAssembly
  | boardAnswer (panel count check : Byte)
  | boardAnswerGap (characters : List Byte)
  | blockDeadline
  | sweepExpiry
  -- the desk line
  | presenceScan (reading : BitVec 16)
  | arbiterStart
  | slotAnswer (station : Nat)
  | claimRoundCompletion
  | answer (station : Nat)
  | checkError
  | quoteRequest (code : Code)
  | recent (code : Code)
  | watchPage
  | watchAdd (code : Code) (above below : Option Nat) (move : Bool)
  | watchDrop (code : Code)
  | setMode (mode interval : Nat)
  | lineCompletion
  | endCompletion
  | suspendCompletion
  | receipt (station : Nat)
  | ready (station : Nat)
  | deskFrameIncomplete
  | windowExpiry
  | deskSignalChange (attn busy : Bool)
  | stuckDeadlineExpiry
  | clearSequenceCompletion
  | retryDeadlineExpiry
  | streamTimerExpiry (station : Nat)
  -- the two rows the table lists last
  | feedCharacterReceived (arrival : Arrival)
  | unknownRequestKind
  deriving DecidableEq, Repr

end Sys2Proof
end

