-- ==== Sys2Proof/WellFormed.lean ====
section
/-! DEFINITION. When a command's operands fit the fields that carry them (R191, R192, Tables 10-2 and 10-3). A
meaning answers for every operand, in its field or not: this says which terms a message, frame or pin can spell. -/

namespace Sys2Proof

/-- A number that fits in `width` characters (Chapter 10, most significant first). -/
def fits (width value : Nat) : Bool := decide (value < 256 ^ width)

/-- An optional field's number fits in `width` characters. -/
def fitsOption (width : Nat) : Option Nat → Bool
  | none => true
  | some value => fits width value

/-- A code as five characters can carry it, the filling spaces taken off (R191). -/
def Code.carried (code : Code) : Bool :=
  decide (code.length ≤ 5) && code.all (fun c => decide (c.toNat < 256)) && decide (code.getLast? ≠ some ' ')

/-- T and H are two characters, n and k one (Table 10-3). -/
def MonSettings.carried (m : MonSettings) : Bool :=
  fits 2 m.t && fits 2 m.h && fits 1 m.n && fits 1 m.k

/-- A cell slot that holds a cell: its panel character is not 255 (R192). -/
def cellCarried (cell : Nat × Nat) : Bool :=
  decide (cell.1 < 255) && fits 1 cell.2

/-- The arguments of LOAD SYMBOL: two cell slots at most (Table 10-3). -/
def LoadArgs.carried (a : LoadArgs) : Bool :=
  a.code.carried && fits 2 a.record && fits 1 a.grid && decide (a.cells.length ≤ 2) && a.cells.all cellCarried &&
    a.settings.carried && fitsOption 3 a.prevClose

/-- A LOAD WATCH entry: a record number of nine bits, levels of three characters (R192). -/
def WatchArgs.carried (w : WatchArgs) : Bool :=
  decide (w.record < 512) && fitsOption 3 w.above && fitsOption 3 w.below

/-- How many characters a LOAD WATCH entry takes (R192). -/
def WatchArgs.width (w : WatchArgs) : Nat :=
  2 + (if w.above.isSome then 3 else 0) + (if w.below.isSome then 3 else 0)

/-- The entries of a LOAD WATCH fit in one message of 64 characters (R192: at most eleven levels with twelve entries). -/
def watchListCarried (entries : List WatchArgs) : Bool :=
  entries.all WatchArgs.carried && decide (7 + (entries.map WatchArgs.width).sum ≤ 64)

/-- A record number of two characters; 65,535 in SET CELL is the mark "unassigned" and no record (R191). -/
def cellRecordCarried : Option Nat → Bool
  | none => true
  | some r => decide (r < 65535)

/-- The arguments of a command fit the fields of Table 10-3. -/
def Command.wellFormed : Command → Bool
  | .ackRestart => true
  | .restartKeep => true
  | .restartClear => true
  | .loadSymbol args => args.carried
  | .addAlias code record => code.carried && fits 2 record
  | .dropAlias code => code.carried
  | .dropSymbol code => code.carried
  | .setCell panel cell record => fits 1 panel && fits 1 cell && cellRecordCarried record
  | .setMonitor record settings => fits 2 record && settings.carried
  | .loadWatch station entries => fits 1 station && watchListCarried entries
  | .clearWatch station => fits 1 station
  | .setStation station mode interval => fits 1 station && fits 1 mode && fits 1 interval
  | .setParameter ident value => fits 1 ident && fits 2 value
  | .pauseBoard => true
  | .continueBoard => true
  | .restorePanel panel => fits 1 panel
  | .queryStatus part => fits 1 part
  | .queryRecord part record => fits 1 part && fits 2 record
  | .queryStation part station => fits 1 part && fits 1 station
  | .queryWatch part station => fits 1 part && fits 1 station
  | .queryCounters part => fits 1 part
  | .clearCounters => true
  | .assign candidate => fits 1 candidate

/-- A QUOTE side: a price of three characters and a size of two (Table 10-2). -/
def sideCarried : Option (Nat × Nat) → Bool
  | none => true
  | some (price, size) => fits 3 price && fits 2 size

/-- The fields of a market message fit the fields of Table 10-2. -/
def MarketMsg.wellFormed : MarketMsg → Bool
  | .print code price volume condition => code.carried && fits 3 price && fits 3 volume && fits 1 condition
  | .quote code bid ask => code.carried && sideCarried bid && sideCarried ask
  | .cancel code sequence price volume => code.carried && fits 2 sequence && fits 3 price && fits 3 volume
  | .halt code reason => code.carried && fits 1 reason
  | .resume code => code.carried
  | .figures code prevClose opening high low volume =>
    code.carried && fits 3 prevClose && fitsOption 3 opening && fitsOption 3 high && fitsOption 3 low && fitsOption 4 volume
  | .notice text => decide (1 ≤ text.length) && decide (text.length ≤ 59) && text.all (fun c => decide (c.toNat < 256))
  | .dayStart => true
  | .session value => fits 1 value
  | .time hours minutes seconds => fits 1 hours && fits 1 minutes && fits 1 seconds

/-- Station numbers in frames and the answers' characters are single characters; a station's slot is 0 to 15
(R193). The operands of a loop command fit Table 10-3 and its address one character. -/
def Instr.wellFormed : Instr → Bool
  | .powerOn _ => true
  | .ackRestart addr => fits 1 addr
  | .restartKeep addr => fits 1 addr
  | .restartClear addr => fits 1 addr
  | .loadSymbol addr args => fits 1 addr && (Command.loadSymbol args).wellFormed
  | .addAlias addr code record => fits 1 addr && (Command.addAlias code record).wellFormed
  | .dropAlias addr code => fits 1 addr && (Command.dropAlias code).wellFormed
  | .dropSymbol addr code => fits 1 addr && (Command.dropSymbol code).wellFormed
  | .loadSymbolCompletion => true
  | .addAliasCompletion => true
  | .dropAliasCompletion => true
  | .dropSymbolCompletion => true
  | .setCell addr panel cell record => fits 1 addr && (Command.setCell panel cell record).wellFormed
  | .setMonitor addr record settings => fits 1 addr && (Command.setMonitor record settings).wellFormed
  | .loadWatch addr station entries => fits 1 addr && (Command.loadWatch station entries).wellFormed
  | .clearWatch addr station => fits 1 addr && (Command.clearWatch station).wellFormed
  | .setStation addr station mode interval => fits 1 addr && (Command.setStation station mode interval).wellFormed
  | .setParameter addr ident value => fits 1 addr && (Command.setParameter ident value).wellFormed
  | .pauseBoard addr => fits 1 addr
  | .continueBoard addr => fits 1 addr
  | .restorePanel addr panel => fits 1 addr && (Command.restorePanel panel).wellFormed
  | .queryStatus addr part => fits 1 addr && (Command.queryStatus part).wellFormed
  | .queryRecord addr part record => fits 1 addr && (Command.queryRecord part record).wellFormed
  | .queryStation addr part station => fits 1 addr && (Command.queryStation part station).wellFormed
  | .queryWatch addr part station => fits 1 addr && (Command.queryWatch part station).wellFormed
  | .queryCounters addr part => fits 1 addr && (Command.queryCounters part).wellFormed
  | .clearCounters addr => fits 1 addr
  | .assign addr candidate => fits 1 addr && (Command.assign candidate).wellFormed
  | .unknownCommand addr number body => fits 1 addr && fits 1 number && decide (body.length ≤ 59)
  | .feedMessageReceived _ => true
  | .framingFault _ => true
  | .lossOfLockOnSilence => true
  | .feedLost => true
  | .feedOutFree => true
  | .feedInQuiet => true
  | .replyExpiry position => decide (position < 4)
  | .classifierTake => true
  | .dayStartWalkStep => true
  | .dayStartWalkCompletion => true
  | .floorTimeAdvance => true
  | .holdExpiry record => decide (record < 512)
  | .ribbonCompletion _ => true
  | .blockAssembly => true
  | .boardAnswer _ _ _ => true
  | .boardAnswerGap characters => decide (characters.length < 4)
  | .blockDeadline => true
  | .sweepExpiry => true
  | .presenceScan _ => true
  | .arbiterStart => true
  | .slotAnswer station => decide (station < 16)
  | .claimRoundCompletion => true
  | .answer station => fits 1 station
  | .checkError => true
  | .quoteRequest code => code.carried
  | .recent code => code.carried
  | .watchPage => true
  | .watchAdd code above below _ => code.carried && fitsOption 3 above && fitsOption 3 below
  | .watchDrop code => code.carried
  | .setMode mode interval => fits 1 mode && fits 1 interval
  | .lineCompletion => true
  | .endCompletion => true
  | .suspendCompletion => true
  | .receipt station => fits 1 station
  | .ready station => fits 1 station
  | .deskFrameIncomplete => true
  | .windowExpiry => true
  | .deskSignalChange _ _ => true
  | .stuckDeadlineExpiry => true
  | .clearSequenceCompletion => true
  | .retryDeadlineExpiry => true
  | .streamTimerExpiry station => decide (station < 16)
  | .feedCharacterReceived _ => true
  | .unknownRequestKind => true

end Sys2Proof
end

