-- ==== Sys2Proof/Decode.lean ====
section
/-! DEFINITION. From characters to commands and market messages, and back: the layouts of Tables 10-1 to 10-3 with the
encodings of R191 and R192, total on any characters. `decodeTableWord` is the host's question about the opcode
table's bits: the table gives no row any bits, so no word spells a command. -/

namespace Sys2Proof

/-- The command a word spells by the bits of spec/opcode_table.json: that table gives bits to none of its rows. -/
def decodeTableWord (_nbits _w : Nat) : Option Instr := none

/-- A number carried in characters, most significant first (Chapter 10). -/
def numberOf (bytes : List Byte) : Nat := bytes.foldl (fun acc b => acc * 256 + b.toNat) 0

/-- `width` characters of a number, most significant first (Chapter 10). -/
def charactersOf : Nat → Nat → List Byte
  | 0, _ => []
  | width + 1, value => BitVec.ofNat 8 (value / 256 ^ width) :: charactersOf width value

/-- The `width` characters of a body that begin at place `start`. -/
def slice (body : List Byte) (start width : Nat) : List Byte := (body.drop start).take width

/-- The number in the `width` characters of a body that begin at place `start`. -/
def fieldOf (body : List Byte) (start width : Nat) : Nat := numberOf (slice body start width)

/-- Text with the spaces at its end taken off. -/
def trimSpaces : Text → Text
  | [] => []
  | c :: rest =>
    match trimSpaces rest with
    | [] => if c = ' ' then [] else [c]
    | kept => c :: kept

/-- A code field's five characters as a code: the spaces that fill it taken off (R191). -/
def codeOf (bytes : List Byte) : Code := trimSpaces (bytes.map (fun b => Char.ofNat b.toNat))

/-- One character of text on a line (R191; assumption 15 for characters other than letters and space). -/
def characterOf (c : Char) : Byte := BitVec.ofNat 8 c.toNat

/-- A code in five characters, filled with spaces (R191). -/
def codeCharacters (code : Code) : List Byte := ((code.map characterOf) ++ List.replicate 5 32#8).take 5

/-- A field with a presence flag: absent when its flag bit is clear, its characters then ignored (R191). -/
def presentField (flags bit : Nat) (value : Nat) : Option Nat := if flags.testBit bit then some value else none

/-- Presence flags in one character, the first-named field in the lowest bit (R191). -/
def flagBits : List Bool → Nat
  | [] => 0
  | b :: rest => (if b then 1 else 0) + 2 * flagBits rest

/-- A cell slot of LOAD SYMBOL: panel character 255 holds no cell (R192). -/
def slotCells (panel cell : Nat) : List (Nat × Nat) := if panel = 255 then [] else [(panel, cell)]

/-- The entries of LOAD WATCH, which must use up the body exactly (R191, R192). -/
def parseEntries : Nat → List Byte → Option (List WatchArgs)
  | 0, [] => some []
  | 0, _ :: _ => none
  | count + 1, body =>
    if body.length < 2 then none else
    let word := fieldOf body 0 2
    let hasAbove := word.testBit 9
    let hasBelow := word.testBit 10
    let afterWord := body.drop 2
    let afterAbove := if hasAbove then afterWord.drop 3 else afterWord
    let rest := if hasBelow then afterAbove.drop 3 else afterAbove
    if afterWord.length < (if hasAbove then 3 else 0) + (if hasBelow then 3 else 0) then none else
    (parseEntries count rest).map fun entries =>
      { record := word % 512
        above := if hasAbove then some (fieldOf afterWord 0 3) else none
        below := if hasBelow then some (fieldOf afterAbove 0 3) else none
        move := word.testBit 11 } :: entries

/-- The characters of one LOAD WATCH entry (R192). -/
def entryCharacters (w : WatchArgs) : List Byte :=
  charactersOf 2 (w.record + 512 * flagBits [w.above.isSome, w.below.isSome, w.move]) ++
    (match w.above with | none => [] | some level => charactersOf 3 level) ++
    (match w.below with | none => [] | some level => charactersOf 3 level)

/-- The number of a command (R190, section 10.1). -/
def Command.number : Command → Nat
  | .ackRestart => 1
  | .restartKeep => 2
  | .restartClear => 3
  | .loadSymbol _ => 4
  | .addAlias _ _ => 5
  | .dropAlias _ => 6
  | .dropSymbol _ => 7
  | .setCell _ _ _ => 8
  | .setMonitor _ _ => 9
  | .loadWatch _ _ => 10
  | .clearWatch _ => 11
  | .setStation _ _ _ => 12
  | .setParameter _ _ => 13
  | .pauseBoard => 14
  | .continueBoard => 15
  | .restorePanel _ => 16
  | .queryStatus _ => 17
  | .queryRecord _ _ => 18
  | .queryStation _ _ => 19
  | .queryWatch _ _ => 20
  | .queryCounters _ => 21
  | .clearCounters => 22
  | .assign _ => 23

/-- LOAD SYMBOL's arguments from its 23 body characters (Table 10-3, R192). DESIGN CHOICE: the bits 1 to 7 of its presence flags,
which name no field, are ignored (assumption 43); those of its tape mask are ignored by Table 10-3. -/
def loadArgsOf (body : List Byte) : LoadArgs where
  code := codeOf (slice body 0 5)
  record := fieldOf body 5 2
  grid := fieldOf body 7 1
  maskA := (fieldOf body 8 1).testBit 0
  maskB := (fieldOf body 8 1).testBit 1
  cells := slotCells (fieldOf body 9 1) (fieldOf body 10 1) ++ slotCells (fieldOf body 11 1) (fieldOf body 12 1)
  settings := { t := fieldOf body 13 2, h := fieldOf body 15 2, n := fieldOf body 17 1, k := fieldOf body 18 1 }
  prevClose := presentField (fieldOf body 19 1) 0 (fieldOf body 20 3)

/-- A command from its number and body characters: none where the number names no command or the length does not agree
with the command (R180, R191, Table 10-3). -/
def parseCommand (number : Nat) (body : List Byte) : Option Command :=
  let whenLength (length : Nat) (command : Command) : Option Command := if body.length = length then some command else none
  match number with
  | 1 => whenLength 0 .ackRestart
  | 2 => whenLength 0 .restartKeep
  | 3 => whenLength 0 .restartClear
  | 4 => whenLength 23 (.loadSymbol (loadArgsOf body))
  | 5 => whenLength 7 (.addAlias (codeOf (slice body 0 5)) (fieldOf body 5 2))
  | 6 => whenLength 5 (.dropAlias (codeOf body))
  | 7 => whenLength 5 (.dropSymbol (codeOf body))
  | 8 => whenLength 4 (.setCell (fieldOf body 0 1) (fieldOf body 1 1)
      (if fieldOf body 2 2 = 65535 then none else some (fieldOf body 2 2)))
  | 9 => whenLength 8 (.setMonitor (fieldOf body 0 2)
      { t := fieldOf body 2 2, h := fieldOf body 4 2, n := fieldOf body 6 1, k := fieldOf body 7 1 })
  | 10 =>
    if body.length < 2 then none else
    (parseEntries (fieldOf body 1 1) (body.drop 2)).map fun entries => .loadWatch (fieldOf body 0 1) entries
  | 11 => whenLength 1 (.clearWatch (fieldOf body 0 1))
  | 12 => whenLength 3 (.setStation (fieldOf body 0 1) (fieldOf body 1 1) (fieldOf body 2 1))
  | 13 => whenLength 3 (.setParameter (fieldOf body 0 1) (fieldOf body 1 2))
  | 14 => whenLength 0 .pauseBoard
  | 15 => whenLength 0 .continueBoard
  | 16 => whenLength 1 (.restorePanel (fieldOf body 0 1))
  | 17 => whenLength 1 (.queryStatus (fieldOf body 0 1))
  | 18 => whenLength 3 (.queryRecord (fieldOf body 0 1) (fieldOf body 1 2))
  | 19 => whenLength 2 (.queryStation (fieldOf body 0 1) (fieldOf body 1 1))
  | 20 => whenLength 2 (.queryWatch (fieldOf body 0 1) (fieldOf body 1 1))
  | 21 => whenLength 1 (.queryCounters (fieldOf body 0 1))
  | 22 => whenLength 0 .clearCounters
  | 23 => whenLength 1 (.assign (fieldOf body 0 1))
  | _ => none

/-- The two characters of a cell slot (R192). -/
def slotCharacters : Option (Nat × Nat) → List Byte
  | none => [255#8, 0#8]
  | some (panel, cell) => charactersOf 1 panel ++ charactersOf 1 cell

/-- A command's body characters (Table 10-3, R192); characters of an absent field are sent as 0. -/
def commandBody : Command → List Byte
  | .ackRestart => []
  | .restartKeep => []
  | .restartClear => []
  | .loadSymbol a =>
    codeCharacters a.code ++ charactersOf 2 a.record ++ charactersOf 1 a.grid ++
      charactersOf 1 (flagBits [a.maskA, a.maskB]) ++ slotCharacters a.cells[0]? ++ slotCharacters a.cells[1]? ++
      charactersOf 2 a.settings.t ++ charactersOf 2 a.settings.h ++ charactersOf 1 a.settings.n ++
      charactersOf 1 a.settings.k ++ charactersOf 1 (flagBits [a.prevClose.isSome]) ++ charactersOf 3 (a.prevClose.getD 0)
  | .addAlias code record => codeCharacters code ++ charactersOf 2 record
  | .dropAlias code => codeCharacters code
  | .dropSymbol code => codeCharacters code
  | .setCell panel cell record => charactersOf 1 panel ++ charactersOf 1 cell ++ charactersOf 2 (record.getD 65535)
  | .setMonitor record m =>
    charactersOf 2 record ++ charactersOf 2 m.t ++ charactersOf 2 m.h ++ charactersOf 1 m.n ++ charactersOf 1 m.k
  | .loadWatch station entries =>
    charactersOf 1 station ++ charactersOf 1 entries.length ++ (entries.map entryCharacters).flatten
  | .clearWatch station => charactersOf 1 station
  | .setStation station mode interval => charactersOf 1 station ++ charactersOf 1 mode ++ charactersOf 1 interval
  | .setParameter ident value => charactersOf 1 ident ++ charactersOf 2 value
  | .pauseBoard => []
  | .continueBoard => []
  | .restorePanel panel => charactersOf 1 panel
  | .queryStatus part => charactersOf 1 part
  | .queryRecord part record => charactersOf 1 part ++ charactersOf 2 record
  | .queryStation part station => charactersOf 1 part ++ charactersOf 1 station
  | .queryWatch part station => charactersOf 1 part ++ charactersOf 1 station
  | .queryCounters part => charactersOf 1 part
  | .clearCounters => []
  | .assign candidate => charactersOf 1 candidate

/-- The kind character of a market message (Table 10-1). -/
def MarketMsg.kind : MarketMsg → Nat
  | .print _ _ _ _ => 17
  | .quote _ _ _ => 18
  | .cancel _ _ _ _ => 19
  | .halt _ _ => 20
  | .resume _ => 21
  | .figures _ _ _ _ _ _ => 22
  | .notice _ => 23
  | .dayStart => 24
  | .session _ => 25
  | .time _ _ _ => 26

/-- Whether a kind character is a market message's (Table 10-1). -/
def isMarketKind (kind : Nat) : Bool := decide (17 ≤ kind) && decide (kind ≤ 26)

/-- One side of a QUOTE (Table 10-2). -/
def sideOf (flags bit price size : Nat) : Option (Nat × Nat) := if flags.testBit bit then some (price, size) else none

/-- A market message from its kind and body characters: none where the length does not agree with the kind (R171, R191,
Table 10-2). DESIGN CHOICE: the bits of the presence flags that name no field, 2 to 7 in QUOTE and 4 to 7 in FIGURES, are
ignored (assumption 43). -/
def parseMarket (kind : Nat) (body : List Byte) : Option MarketMsg :=
  let whenLength (length : Nat) (msg : MarketMsg) : Option MarketMsg := if body.length = length then some msg else none
  match kind with
  | 17 => whenLength 12 (.print (codeOf (slice body 0 5)) (fieldOf body 5 3) (fieldOf body 8 3) (fieldOf body 11 1))
  | 18 => whenLength 16 (.quote (codeOf (slice body 0 5))
      (sideOf (fieldOf body 5 1) 0 (fieldOf body 6 3) (fieldOf body 9 2))
      (sideOf (fieldOf body 5 1) 1 (fieldOf body 11 3) (fieldOf body 14 2)))
  | 19 => whenLength 13 (.cancel (codeOf (slice body 0 5)) (fieldOf body 5 2) (fieldOf body 7 3) (fieldOf body 10 3))
  | 20 => whenLength 6 (.halt (codeOf (slice body 0 5)) (fieldOf body 5 1))
  | 21 => whenLength 5 (.resume (codeOf body))
  | 22 => whenLength 22 (.figures (codeOf (slice body 0 5)) (fieldOf body 6 3)
      (presentField (fieldOf body 5 1) 0 (fieldOf body 9 3)) (presentField (fieldOf body 5 1) 1 (fieldOf body 12 3))
      (presentField (fieldOf body 5 1) 2 (fieldOf body 15 3)) (presentField (fieldOf body 5 1) 3 (fieldOf body 18 4)))
  | 23 => if 1 ≤ body.length ∧ body.length ≤ 59 then some (.notice (body.map fun b => Char.ofNat b.toNat)) else none
  | 24 => whenLength 0 .dayStart
  | 25 => whenLength 1 (.session (fieldOf body 0 1))
  | 26 => whenLength 3 (.time (fieldOf body 0 1) (fieldOf body 1 1) (fieldOf body 2 1))
  | _ => none

/-- The characters of one side of a QUOTE; an absent side's are sent as 0. -/
def sideCharacters : Option (Nat × Nat) → List Byte
  | none => charactersOf 3 0 ++ charactersOf 2 0
  | some (price, size) => charactersOf 3 price ++ charactersOf 2 size

/-- A market message's body characters (Table 10-2). -/
def marketBody : MarketMsg → List Byte
  | .print code price volume condition =>
    codeCharacters code ++ charactersOf 3 price ++ charactersOf 3 volume ++ charactersOf 1 condition
  | .quote code bid ask =>
    codeCharacters code ++ charactersOf 1 (flagBits [bid.isSome, ask.isSome]) ++ sideCharacters bid ++ sideCharacters ask
  | .cancel code sequence price volume =>
    codeCharacters code ++ charactersOf 2 sequence ++ charactersOf 3 price ++ charactersOf 3 volume
  | .halt code reason => codeCharacters code ++ charactersOf 1 reason
  | .resume code => codeCharacters code
  | .figures code prevClose opening high low volume =>
    codeCharacters code ++ charactersOf 1 (flagBits [opening.isSome, high.isSome, low.isSome, volume.isSome]) ++
      charactersOf 3 prevClose ++ charactersOf 3 (opening.getD 0) ++ charactersOf 3 (high.getD 0) ++
      charactersOf 3 (low.getD 0) ++ charactersOf 4 (volume.getD 0)
  | .notice text => text.map characterOf
  | .dayStart => []
  | .session value => charactersOf 1 value
  | .time hours minutes seconds => charactersOf 1 hours ++ charactersOf 1 minutes ++ charactersOf 1 seconds

/-- The characters from kind to check, added together modulo 256 (R162). -/
def characterSum (bytes : List Byte) : Byte := bytes.foldl (· + ·) 0

/-- A message from kind to check: its length character counts all of them, and the check makes their sum 0 modulo 256
(R162, Table 10-1). -/
def wholeMessage (kind : Nat) (addressing body : List Byte) : List Byte :=
  let front := BitVec.ofNat 8 kind :: BitVec.ofNat 8 (3 + addressing.length + body.length) :: (addressing ++ body)
  front ++ [- characterSum front]

/-- A command message from kind to check (Tables 10-1 and 10-3). -/
def commandMessage (addr : Nat) (command : Command) : List Byte :=
  wholeMessage 64 (charactersOf 1 addr ++ charactersOf 1 command.number) (commandBody command)

/-- A market message from kind to check (Tables 10-1 and 10-2). -/
def marketMessage (sequence : Nat) (msg : MarketMsg) : List Byte :=
  wholeMessage msg.kind (charactersOf 2 sequence) (marketBody msg)

end Sys2Proof
end

