-- ==== Sys2Proof/Config.lean ====
section
/-! DEFINITION. What the manual leaves open as a value: free values with no body, so that no proof can rest on one.
The capacities and ranges the manual does give stand in Machine/Ops.lean and Machine/Operands.lean. -/

namespace Sys2Proof

/-- The dashes a board cell shows in place of its price when the shown dollars exceed 9,999: R26 and R99 give the
dashes and not their number (assumption 10). A free value. -/
opaque Config.priceDashes : Text

/-- The dashes a board cell shows after the sign of its change: R26 and R99 give the dashes and not their number
(assumption 10). A free value. -/
opaque Config.changeDashes : Text

/-- Whether a flag held at the receiver is still held after a character whose stop bit is not found. R190 discards
that character and says what a data character, a flag and silence do to the held flag, and not this (assumption 11).
A free value. -/
opaque Config.flagOutlivesBadCharacter : Bool

/-- The command echo of the refusal of a command message of 4 characters from kind to check, which holds no
command character to echo (assumption 12). A free value. -/
opaque Config.missingEcho : Nat

/-- How the three level marks of an entry line (above, below, move) are spelled: R148 says what they show and not
their text (assumption 14). A free value. -/
opaque Config.levelMarkText : Bool → Bool → Bool → Text

/-- What becomes of a queued cell of a PROBING panel that has no assigned cells: it waits in the dirty queue, or it leaves
it without being sent. R110 sends such a panel no block and does not say this (assumption 40). A free value. -/
opaque Config.unprobedCellWaits : Bool

end Sys2Proof
end

