-- ==== Sys2Proof/Machine/State.lean ====
section
/-! DEFINITION. The state of the controller as plain data, block by block as Table 0-1 divides it, and the state after
power-on. Every type here is closed data; what the blocks do stands in the other files of this folder. -/

namespace Sys2Proof.Machine

/-! ### Stops -/

/-- Why a command stops the machine. -/
inductive Fault where
  /-- Raised by FEED_CHARACTER_RECEIVED and FEED_MESSAGE_RECEIVED when a character would join a forward queue that holds
  512 characters already. R165 says the queue has 512 places and never holds more than 320, and gives no effect for a
  full queue. Safe: the model stops where the part never is. -/
  | forwardQueueFull
  deriving DecidableEq, Repr

/-- Why a command has no meaning. -/
inductive Refusal where
  /-- Raised by an arm of `exec` that has no meaning yet. Safe. -/
  | notModelled (mnemonic : String)
  deriving DecidableEq, Repr

/-! ### Prices, records and the quote store (Chapters 1 to 3) -/

/-- The condition of a print as it was taken (R31). -/
inductive Condition where
  | regular
  | opened
  | sld
  deriving DecidableEq, Repr

/-- The halt reasons (Table 1-1). -/
inductive HaltReason where
  | news
  | imbalance
  | other
  deriving DecidableEq, Repr

/-- The tick (Table 1-1); `noTick` is NONE. -/
inductive Tick where
  | noTick
  | up
  | down
  | zeroPlus
  | zeroMinus
  deriving DecidableEq, Repr

/-- A move direction (Table 3-1). -/
inductive Direction where
  | up
  | down
  deriving DecidableEq, Repr

/-- The states of a move monitor (Table 3-1). -/
inductive MonitorState where
  | calm
  | arming
  | active
  | releasing
  deriving DecidableEq, Repr

/-- A record's move monitor (Table 3-1). The baseline is in 1/256 PU. -/
structure Monitor where
  settings : MonSettings
  state : MonitorState
  count : Nat
  baseline : Option Nat
  direction : Option Direction
  hold : Option Reading
  deriving DecidableEq, Repr

/-- Floor time (section 2.9). -/
structure FloorTime where
  hours : Nat
  minutes : Nat
  seconds : Nat
  deriving DecidableEq, Repr

/-- One print of a recent ring (R31). -/
structure Print where
  sequence : Nat
  price : Nat
  volume : Nat
  condition : Condition
  deriving DecidableEq, Repr

/-- The fields of an occupied quote record (Table 1-1 and R32). A cell is numbered panel × 64 + cell. `halted` is the
trading state: absent for NORMAL, the reason for HALTED. `last` is last with its floor time. The tape-shown marks are
not here: they read the tapes' sets (R11). -/
structure QuoteRecord where
  code : Code
  grid : Nat
  maskA : Bool
  maskB : Bool
  cells : List Nat
  halted : Option HaltReason
  prevClose : Option Nat
  last : Option (Nat × FloorTime)
  reference : Option Nat
  tick : Tick
  opening : Option Nat
  high : Option Nat
  low : Option Nat
  volume : Nat
  bid : Option (Nat × Nat)
  ask : Option (Nat × Nat)
  ring : List Print
  traded : Bool
  monitor : Monitor
  deriving DecidableEq, Repr

/-- The session (section 2.9). -/
inductive Session where
  | closed
  | preOpen
  | opened
  deriving DecidableEq, Repr

/-- The quote store: the occupied records by number, ascending (R19, R21), the session, floor time with the reading of
its next second (R54), and the DAY START walk with the record number it will reach next (section 2.9). -/
structure QuoteStore where
  records : List (Nat × QuoteRecord)
  session : Session
  floor : FloorTime
  secondAt : Reading
  walk : Option Nat
  deriving DecidableEq, Repr

/-! ### The directory (Chapter 1) -/

/-- The kind of a directory entry (section 1.1); `aliased` is ALIAS. -/
inductive EntryKind where
  | primary
  | aliased
  deriving DecidableEq, Repr

/-- A directory entry (section 1.1). -/
structure Entry where
  code : Code
  record : Nat
  kind : EntryKind
  deriving DecidableEq, Repr

/-- The directory operation held, with what its command carried; the settings of a load are stored clamped (R10), and a
DROP SYMBOL holds the record its PRIMARY entry named (R15). -/
inductive DirWork where
  | load (args : LoadArgs)
  | addAlias (code : Code) (record : Nat)
  | dropAlias (code : Code)
  | dropSymbol (code : Code) (record : Nat)
  deriving DecidableEq, Repr

/-- The operation state of the directory (section 1.2). `placeHeld` says whether a reply place is held for it, which an
accepted broadcast does not do (R5). -/
inductive DirOperation where
  | idle
  | draining (work : DirWork) (placeHeld : Bool)
  | working (work : DirWork) (placeHeld : Bool)
  deriving DecidableEq, Repr

/-- The symbol directory: its entries in code order (R1) and its operation state. -/
structure Directory where
  entries : List Entry
  operation : DirOperation
  deriving DecidableEq, Repr

/-! ### Tapes (Chapter 4) -/

/-- What an item says (Table 4-2). -/
inductive ItemKind where
  | print (code : Code) (price grid volume : Nat) (condition : Condition) (sequences : List Nat)
  | cxl (code : Code) (price grid : Nat)
  | halted (code : Code) (reason : HaltReason)
  | resumed (code : Code)
  | notice (text : Text)
  | sessionOpen
  | sessionClosed
  | feedInterrupted
  | feedRestored
  | omitted (count : Nat)
  deriving DecidableEq, Repr

/-- A tape item with its arrival stamp (R74). -/
structure Item where
  stamp : Reading
  kind : ItemKind
  deriving DecidableEq, Repr

/-- A level notice with its arrival stamp (R83). -/
structure LevelNotice where
  level : Nat
  stamp : Reading
  deriving DecidableEq, Repr

/-- The ribbon state with the rendered text on the ribbon and its completion time (Table 4-1). -/
inductive Ribbon where
  | idle
  | notice (text : Text) (doneAt : Reading)
  | item (text : Text) (doneAt : Reading)
  deriving DecidableEq, Repr

/-- One tape (Table 4-1). `shown` is the shown-in-full set, in the order its codes joined. -/
structure Tape where
  queue : List Item
  ribbon : Ribbon
  level : Nat
  slot : Option LevelNotice
  shown : List Code
  omitted : Nat
  deriving DecidableEq, Repr

/-! ### Boards (Chapter 5) -/

/-- The attributes of a cell update (R100). -/
structure Attributes where
  blank : Bool
  halted : Bool
  fast : Bool
  stale : Bool
  overflow : Bool
  deriving DecidableEq, Repr

/-- A price or change field of a cell update: empty, a text, or dashes after the sign, if there is one (R99). -/
inductive CellField where
  | empty
  | shown (text : Text)
  | dashes (sign : Text)
  deriving DecidableEq, Repr

/-- A rendered cell update (R99, section 10.5); `cell` is 0 to 63 within its panel. -/
structure CellUpdate where
  cell : Nat
  symbol : Code
  price : CellField
  change : CellField
  volume : Nat
  tick : Tick
  attributes : Attributes
  deriving DecidableEq, Repr

/-- The block in flight (section 5.4): its panel, its cells in send order, the updates and check sent on BOARD OUT, and
its deadline. -/
structure Block where
  panel : Nat
  cells : List Nat
  updates : List CellUpdate
  check : Nat
  deadline : Reading
  deriving DecidableEq, Repr

/-- The states of a panel (section 5.5). -/
inductive PanelState where
  | inService
  | out
  | probing
  deriving DecidableEq, Repr

/-- A panel: IN, OUT or PROBING, with its consecutive-failure count (section 5.5). -/
structure Panel where
  state : PanelState
  failures : Nat
  deriving DecidableEq, Repr

/-- The board's pause state (section 5.6). -/
inductive PauseState where
  | running
  | pausing
  | paused
  deriving DecidableEq, Repr

/-- The board refresher: the cell map (assigned cells only, ascending), the dirty queue, the block in flight, the four
panels, the pause state and the sweep timer's next expiry. -/
structure Board where
  cellMap : List (Nat × Nat)
  dirty : List Nat
  block : Option Block
  panels : List Panel
  pause : PauseState
  sweepAt : Reading
  deriving DecidableEq, Repr

/-! ### The desk line and the station records (Chapters 6 and 7) -/

/-- The presence states (R119). -/
inductive Presence where
  | detached
  | attached
  | absent
  deriving DecidableEq, Repr

/-- The station modes (section 7.6). -/
inductive StationMode where
  | event
  | stream
  | quiet
  deriving DecidableEq, Repr

/-- A watch entry (Table 7-1) with whether it is in the station's pending set (R143): the set has no order of its own
and holds only entries of the list, so the mark stands in the entry. -/
structure WatchEntry where
  record : Nat
  above : Option Nat
  below : Option Nat
  move : Bool
  pending : Bool
  deriving DecidableEq, Repr

/-- The alert reasons (Table 7-5). -/
inductive AlertReason where
  | above
  | below
  | move
  | halt
  | resume
  deriving DecidableEq, Repr

/-- An alert: the record of its watch entry, its reason and its price (section 7.7). -/
structure Alert where
  record : Nat
  reason : AlertReason
  price : Option Nat
  deriving DecidableEq, Repr

/-- The five counters of a station record (Table 6-1). -/
structure StationCounters where
  windowTimeouts : Nat
  checkErrors : Nat
  lost : Nat
  phaseFaults : Nat
  failedDeliveries : Nat
  deriving DecidableEq, Repr

/-- A station record (Table 6-1). `streamAt` is the stream timer's next expiry, present while it runs (R153). -/
structure Station where
  presence : Presence
  mode : StationMode
  interval : Nat
  watch : List WatchEntry
  alerts : List Alert
  streamDue : Bool
  streamAt : Option Reading
  served : Bool
  failedRun : Nat
  counters : StationCounters
  deriving DecidableEq, Repr

/-- The line states (Table 6-2). -/
inductive LineState where
  | free
  | claim
  | selecting
  | request
  | reply
  | reselecting
  | delivery
  | clearing
  | stuck
  deriving DecidableEq, Repr

/-- The six request kinds (section 7.2). -/
inductive RequestKind where
  | quote
  | recent
  | watchPage
  | watchAdd
  | watchDrop
  | setMode
  deriving DecidableEq, Repr

/-- The desk statuses (Table 7-2). -/
inductive DeskStatus where
  | done
  | notReady
  | badRequest
  | unknownSymbol
  | listFull
  | notOnList
  | checkError
  deriving DecidableEq, Repr

/-- What the header of a DONE status page carries beside its status (Table 7-2, R149, R152). -/
inductive StatusInfo where
  | nothing
  | added
  | updated
  | modeStored (mode : StationMode) (interval : Nat)
  deriving DecidableEq, Repr

/-- A page with what it may still send (R145, R159): a status page's header; the fixed things left of a QUOTE, RECENT or
WATCH page; the entries that have had a line in a WATCH CHANGES page with how many entry lines it has sent (R155); how many
lines an ALERTS page has sent (R158). -/
inductive Page where
  | status (kind : Option RequestKind) (status : DeskStatus) (info : StatusInfo) (code : Option Code)
  | quote (record : Nat) (left : List Nat)
  | recent (record : Nat) (left : List Nat)
  | watch (left : List Nat)
  | changes (sent : List Nat) (lines : Nat)
  | alerts (sent : Nat)
  deriving DecidableEq, Repr

/-- A field of a desk line: text, empty where the field is blank, a price that is absent (R145, R158, R191), or the three
level marks (R148). -/
inductive LineField where
  | text (t : Text)
  | absentPrice
  | levelMarks (above below move : Bool)
  deriving DecidableEq, Repr

/-- What a line was made from. A routine delivery's entry line keeps whether its entry has been marked again since it
was rendered (R154), an alert line the alert as rendered (R158). -/
inductive LineSource where
  | header
  | plain
  | entry (record : Nat) (marked : Bool)
  | alert (alert : Alert)
  deriving DecidableEq, Repr

/-- A rendered line on DESK DATA (section 10.4): its number, its STALE mark, its fields in order. -/
structure Line where
  number : Nat
  stale : Bool
  fields : List LineField
  source : LineSource
  deriving DecidableEq, Repr

/-- What the part is sending in a REPLY or DELIVERY, or awaits after it. -/
inductive Output where
  | nothing
  | line (line : Line)
  | ending (broken : Bool)
  | suspending (causing : Nat)
  | receiptAwaited
  deriving DecidableEq, Repr

/-- A transaction's kind (section 6.2). A resumption says whether its page is a request reply or a routine delivery. -/
inductive TransactionKind where
  | request
  | alertDelivery
  | routineDelivery
  | resumption (reply : Bool)
  deriving DecidableEq, Repr

/-- A request that waits in REQUEST for lookups to resume (R128). -/
inductive LookupRequest where
  | quote (code : Code)
  | recent (code : Code)
  | watchAdd (code : Code) (above below : Option Nat) (move : Bool)
  | watchDrop (code : Code)
  deriving DecidableEq, Repr

/-- The transaction in progress (section 6.2): the station, the kind, the page and its next line, what is on the line,
the window running, if any, and a request held for a lookup. -/
structure Transaction where
  station : Nat
  kind : TransactionKind
  page : Option Page
  nextLine : Nat
  output : Output
  window : Option Reading
  held : Option LookupRequest
  deriving DecidableEq, Repr

/-- The suspended-page slot when it holds a page (section 6.8). -/
structure SuspendedPage where
  station : Nat
  reply : Bool
  page : Page
  nextLine : Nat
  causing : Nat
  started : Bool
  deriving DecidableEq, Repr

/-- The desk line controller: the sixteen station records, the line state and transaction, the stations that have
answered in the claim round, the suspended-page slot, the two shared signals, the stuck and retry deadlines, the
arbiter's marks (R124) and the presence scan (R120). -/
structure Desk where
  stations : List Station
  line : LineState
  transaction : Option Transaction
  answered : List Nat
  slot : Option SuspendedPage
  attn : Bool
  busy : Bool
  stuckAt : Option Reading
  retryAt : Option Reading
  alternation : Bool
  lastAlert : Nat
  lastRoutine : Nat
  scanAt : Reading
  scanPrevious : BitVec 16
  deriving DecidableEq, Repr

/-! ### The unit manager: address, parameters, counters (Chapter 9) -/

/-- Where the unit address came from (section 9.1). -/
inductive AddressSource where
  | straps
  | assigned
  | unassigned
  deriving DecidableEq, Repr

/-- The unit state (section 9.3). -/
inductive UnitState where
  | held
  | running
  deriving DecidableEq, Repr

/-- The restart cause (section 9.3). -/
inductive RestartCause where
  | power
  | keep
  | clear
  deriving DecidableEq, Repr

/-- The unit manager's own state; `straps` is the last reading of the six ADDR inputs (R178). -/
structure UnitManager where
  straps : BitVec 6
  address : Nat
  source : AddressSource
  state : UnitState
  cause : RestartCause
  deriving DecidableEq, Repr

/-- The operating parameters in the units of Table 9-3; tape A's scope is ALL when `scopeAll`. -/
structure Params where
  feedLossHold : Nat
  checkFailureLimit : Nat
  replyHold : Nat
  ribbonRateA : Nat
  ribbonRateB : Nat
  scopeAll : Bool
  enter1 : Nat
  enter2 : Nat
  enter3 : Nat
  leave1 : Nat
  leave2 : Nat
  leave3 : Nat
  blockThreshold : Nat
  blockSize : Nat
  panelWindow : Nat
  sweepInterval : Nat
  requestWindow : Nat
  answerWindow : Nat
  deskStuck : Nat
  moveHold : Nat
  deriving DecidableEq, Repr

/-- The sixteen unit counters (Table 9-4). -/
structure Counters where
  framingFaults : Nat
  lockLosses : Nat
  feedLosses : Nat
  checkFailures : Nat
  untaken : Nat
  expiredReplies : Nat
  malformed : Nat
  duplicates : Nat
  gaps : Nat
  missed : Nat
  overruns : Nat
  heldDiscards : Nat
  offGrid : Nat
  omissionsA : Nat
  omissionsB : Nat
  boardFailures : Nat
  deriving DecidableEq, Repr

/-- The five lamp conditions (R189). -/
structure LampConditions where
  held : Bool
  feedLost : Bool
  errorLimit : Bool
  deskStuck : Bool
  panelOut : Bool
  deriving DecidableEq, Repr

/-! ### Replies (Chapters 8 to 10) -/

/-- The reply statuses (section 10.1). -/
inductive Status where
  | done
  | busy
  | badArgument
  | noRoom
  | notFound
  | exists_
  deriving DecidableEq, Repr

/-- The operation state of the directory as QUERY STATUS names it. -/
inductive OperationName where
  | idle
  | draining
  | working
  deriving DecidableEq, Repr

/-- The ribbon state as QUERY STATUS names it (R73). -/
inductive RibbonName where
  | idle
  | notice
  | item
  deriving DecidableEq, Repr

/-- The lock state (R163). -/
inductive LockState where
  | searching
  | locked
  deriving DecidableEq, Repr

/-- The feed state (R164). -/
inductive FeedState where
  | normal
  | lost
  deriving DecidableEq, Repr

/-- QUERY STATUS part 0 (Table 10-4). -/
structure UnitReport where
  address : Nat
  source : AddressSource
  state : UnitState
  cause : RestartCause
  lamp : LampConditions
  primaries : Nat
  aliases : Nat
  operation : OperationName
  session : Session
  floor : FloorTime
  walk : Option Nat
  deriving DecidableEq, Repr

/-- One tape's figures in QUERY STATUS part 1 (R73). -/
structure TapeReport where
  ribbon : RibbonName
  level : Nat
  queued : Nat
  omittedQueued : Option Nat
  omitted : Nat
  shown : Nat
  deriving DecidableEq, Repr

/-- QUERY STATUS part 2 (R115). -/
structure BoardReport where
  pause : PauseState
  panels : List Panel
  dirty : Nat
  block : Option (Nat × Nat)
  deriving DecidableEq, Repr

/-- QUERY STATUS part 3 (R140): the slot gives its station and causing station. -/
structure LineReport where
  line : LineState
  transaction : Option (Nat × TransactionKind)
  slot : Option (Nat × Nat)
  stuckSet : Bool
  alternation : Bool
  lastAlert : Nat
  lastRoutine : Nat
  deriving DecidableEq, Repr

/-- QUERY STATUS part 4 (R169, R172, R175). -/
structure FeedReport where
  lock : LockState
  feed : FeedState
  lossSet : Bool
  forward : Nat
  reserved : Nat
  filled : Nat
  errorLimit : Bool
  intake : Nat
  marked : Nat
  expectation : Option Nat
  deriving DecidableEq, Repr

/-- One watch entry in a QUERY WATCH reply (R160). -/
structure WatchReport where
  entry : WatchEntry
  code : Option Code
  deriving DecidableEq, Repr

/-- The body of a reply, by its fields (Tables 9-1 and 10-4). -/
inductive ReplyBody where
  | empty
  | unitState (state : UnitState)
  | restartCause (cause : RestartCause)
  | codeRecord (code : Code) (record : Nat)
  | code (code : Code)
  | cell (panel cell : Nat) (names : Option Nat)
  | settings (settings : MonSettings)
  | watchLoaded (station entries : Nat)
  | station (station : Nat)
  | modeStored (mode : StationMode) (interval : Nat)
  | parameter (ident value : Nat)
  | tapeScope (all : Bool)
  | levelParameter (ident enter leave : Nat)
  | pauseState (pause : PauseState)
  | panelState (state : PanelState)
  | statusUnit (report : UnitReport)
  | statusTapes (a b : TapeReport)
  | statusBoard (report : BoardReport)
  | statusLine (report : LineReport)
  | statusFeed (report : FeedReport)
  | recordIdentity (code : Code) (grid : Nat) (maskA maskB : Bool) (cells : List Nat) (halted : Option HaltReason)
      (prevClose : Option Nat) (last : Option (Nat × FloorTime)) (reference : Option Nat) (tick : Tick) (traded : Bool)
  | recordDay (opening high low : Option Nat) (volume : Nat) (bid ask : Option (Nat × Nat))
  | recordRing (ring : List Print)
  | recordMonitor (monitor : Monitor) (shownA shownB : Bool)
  | stationState (presence : Presence) (reading : Bool) (mode : StationMode) (interval : Nat) (streamDue : Bool)
      (toStream : Option Nat) (served : Bool) (failedRun : Nat)
  | stationCounters (counters : StationCounters)
  | watchEntries (entries : List WatchReport)
  | watchAlerts (alerts : List Alert)
  | counters (counters : Counters)
  deriving DecidableEq, Repr

/-- A reply: the unit's address, the command echo, the status and the body (section 8.3). -/
structure Reply where
  address : Nat
  echo : Nat
  status : Status
  body : ReplyBody
  deriving DecidableEq, Repr

/-- A filled reply place with the reading at which its hold has passed (R170). -/
structure FilledReply where
  reply : Reply
  expiresAt : Reading
  deriving DecidableEq, Repr

/-! ### The repeater and intake (Chapter 8) -/

/-- A character of the forward queue: a flag or a data character (section 10.1). -/
inductive FeedChar where
  | flag
  | data (value : Byte)
  deriving DecidableEq, Repr

/-- What FEED OUT is sending, with the characters of it that have not yet gone out (R166). A message being sent is the first of
the forward queue's whole messages, its characters there. A reply keeps its place until it is sent, unless a restart has emptied
the reply queue meanwhile (R169, R177). -/
inductive FeedOut where
  | idleFlag (unsent : List FeedChar)
  | message
  | reply (reply : Reply) (unsent : List FeedChar) (holdsPlace : Bool)
  deriving DecidableEq, Repr

/-- What times FEED OUT (R166). -/
inductive FeedTiming where
  | crystal
  | arrivals
  deriving DecidableEq, Repr

/-- The repeater (Table 8-1). The forward queue is its whole messages, each the characters not yet sent, and then the
characters of the message still arriving. The reply queue is the number of reserved places and the filled places in the
order of their filling. `heldFlag` is the flag held at the receiver (R190); `lastArrival` measures silence (R163).
`crystalShare` is the model's own: what has passed of the time of the character that the crystal times, in fifty-fifths of it, 0
while arrivals time FEED OUT (R166; assumption 31). -/
structure Repeater where
  lock : LockState
  goodRun : Nat
  faultRun : Nat
  feed : FeedState
  lossAt : Option Reading
  forward : List (List FeedChar)
  arriving : List FeedChar
  heldFlag : Bool
  lastArrival : Reading
  out : FeedOut
  timing : FeedTiming
  crystalShare : Nat
  reserved : Nat
  filled : List FilledReply
  errorLimit : Bool
  deriving DecidableEq, Repr

/-- A market message in the intake queue (R172), with the mark of R6. -/
structure IntakeMessage where
  sequence : Nat
  message : MarketMsg
  marked : Bool
  deriving DecidableEq, Repr

/-- Intake: the sequence expectation, absent when UNSYNCHRONISED (section 8.4), and the intake queue. -/
structure Intake where
  expectation : Option Nat
  queue : List IntakeMessage
  deriving DecidableEq, Repr

/-! ### The whole state -/

/-- The state of the controller: the unit clock, each block's state (Table 0-1), the parameters and counters the unit
manager keeps for them, and the commands that wait, first in, first out. -/
structure State where
  clock : Reading
  manager : UnitManager
  params : Params
  counters : Counters
  feed : Repeater
  intake : Intake
  directory : Directory
  store : QuoteStore
  tapeA : Tape
  tapeB : Tape
  board : Board
  desk : Desk
  pending : List Instr
  deriving DecidableEq, Repr

/-! ### Reset values -/

/-- The default parameters (Table 9-3). -/
def Params.defaults : Params where
  feedLossHold := 20
  checkFailureLimit := 100
  replyHold := 50
  ribbonRateA := 120
  ribbonRateB := 120
  scopeAll := false
  enter1 := 60
  enter2 := 120
  enter3 := 240
  leave1 := 30
  leave2 := 60
  leave3 := 120
  blockThreshold := 100
  blockSize := 8
  panelWindow := 20
  sweepInterval := 60
  requestWindow := 5
  answerWindow := 5
  deskStuck := 10
  moveHold := 15

/-- Every unit counter 0 (R188). -/
def Counters.zero : Counters := ⟨0, 0, 0, 0, 0, 0, 0, 0, 0, 0, 0, 0, 0, 0, 0, 0⟩

/-- Every station counter 0 (R119). -/
def StationCounters.zero : StationCounters := ⟨0, 0, 0, 0, 0⟩

/-- A tape as every reset leaves it (R96, R97). -/
def Tape.cleared : Tape where
  queue := []
  ribbon := .idle
  level := 0
  slot := none
  shown := []
  omitted := 0

/-- A panel that is IN with count 0. -/
def Panel.fresh : Panel := ⟨.inService, 0⟩

/-- A station record as power-on leaves it (R141). -/
def Station.fresh : Station where
  presence := .detached
  mode := .event
  interval := 10
  watch := []
  alerts := []
  streamDue := false
  streamAt := none
  served := false
  failedRun := 0
  counters := StationCounters.zero

/-- The directory as power-on leaves it (R21). -/
def Directory.cleared : Directory := { entries := [], operation := .idle }

/-- The quote store as power-on leaves it at a clock reading (R21, R55). -/
def QuoteStore.cleared (clock : Reading) : QuoteStore where
  records := []
  session := .closed
  floor := ⟨0, 0, 0⟩
  secondAt := clock + 1000#32
  walk := none

/-- The board refresher as power-on leaves it at a clock reading (R116). -/
def Board.cleared (clock : Reading) : Board where
  cellMap := []
  dirty := []
  block := none
  panels := List.replicate 4 Panel.fresh
  pause := .running
  sweepAt := clock + 60000#32

/-- The desk line controller as power-on leaves it at a clock reading, with the two shared signals as they stand (R141,
R136). -/
def Desk.cleared (clock : Reading) (attn busy : Bool) : Desk where
  stations := List.replicate 16 Station.fresh
  line := .free
  transaction := none
  answered := []
  slot := none
  attn := attn
  busy := busy
  stuckAt := if attn || busy then some (clock + 1000#32) else none
  retryAt := none
  alternation := false
  lastAlert := 15
  lastRoutine := 15
  scanAt := clock + 100#32
  scanPrevious := 0

/-- The repeater as power-on leaves it at a clock reading (R176). That no flag is held at the receiver is the model's
choice: neither R176 nor Table 8-1 gives a value for it (assumption 1). -/
def Repeater.cleared (clock : Reading) : Repeater where
  lock := .searching
  goodRun := 0
  faultRun := 0
  feed := .normal
  lossAt := some (clock + 2000#32)
  forward := []
  arriving := []
  heldFlag := false
  lastArrival := clock
  out := .idleFlag [.flag]
  timing := .crystal
  crystalShare := 0
  reserved := 0
  filled := []
  errorLimit := false

/-- Intake as power-on leaves it (R176). -/
def Intake.cleared : Intake := { expectation := none, queue := [] }

/-- The unit manager as power-on leaves it with the straps read (R178, R185). -/
def UnitManager.powered (straps : BitVec 6) : UnitManager where
  straps := straps
  address := if straps = 63#6 then 0 else straps.toNat
  source := if straps = 0#6 ∨ straps = 63#6 then .unassigned else .straps
  state := .held
  cause := .power

/-- The whole machine right after power-on: the clock reading, the straps read, the shared desk signals as they stand. -/
def State.powered (clock : Reading) (straps : BitVec 6) (attn busy : Bool) : State where
  clock := clock
  manager := UnitManager.powered straps
  params := Params.defaults
  counters := Counters.zero
  feed := Repeater.cleared clock
  intake := Intake.cleared
  directory := Directory.cleared
  store := QuoteStore.cleared clock
  tapeA := Tape.cleared
  tapeB := Tape.cleared
  board := Board.cleared clock
  desk := Desk.cleared clock attn busy
  pending := []

/-- The machine right after reset: power-on at clock reading 0 with straps that read 0 and no desk signal held
(assumption 1 for those four, and for the held flag and the crystal's share), and no command waiting. -/
def State.reset : State := State.powered 0 0 false false

end Sys2Proof.Machine
end

