-- ==== Sys2Proof/Machine/Ops.lean ====
section
/-! DEFINITION. The operations the blocks share: readings of the unit clock, saturating counts, tables in one canonical
form, the directory's order and lookup, the station records, marking cells dirty, and the places of the reply queue. -/

namespace Sys2Proof.Machine

/-! ### The unit clock (0.6.4) -/

/-- Milliseconds from a reading to a later one, as a difference on the 32-bit clock (R66, R82). -/
def elapsed (now since : Reading) : Nat := (now - since).toNat

/-- The clock has reached a deadline: the deadline lies at most half the clock's range behind it (R66; assumption 3). -/
def reached (now deadline : Reading) : Bool := decide ((now - deadline).toNat < 2147483648)

/-- The reading a number of milliseconds after another. -/
def after (now : Reading) (milliseconds : Nat) : Reading := now + BitVec.ofNat 32 milliseconds

/-- An optional deadline is set and has been reached. -/
def due (now : Reading) (deadline : Option Reading) : Bool :=
  match deadline with
  | none => false
  | some at_ => reached now at_

/-! ### The forward queue (R165) -/

/-- How many characters the forward queue holds, the message still arriving among them (R165). -/
def Repeater.forwardCount (f : Repeater) : Nat := (f.forward.map List.length).sum + f.arriving.length

/-- The characters of a message as the forward queue holds them: its flag, then the characters from kind to check. -/
def queued (bytes : List Byte) : List FeedChar := .flag :: bytes.map .data

/-! ### Counts -/

/-- A 16-bit count that saturates at 65,535, after an addition (0.6.5). -/
def bump (count addition : Nat) : Nat := min 65535 (count + addition)

/-- Day volume after a print's volume is added, held at 4,294,967,295 (R30). -/
def addVolume (volume addition : Nat) : Nat := min 4294967295 (volume + addition)

/-- Day volume after a cancelled volume is subtracted, held at 0 (R30). -/
def subtractVolume (volume taken : Nat) : Nat := volume - taken

/-! ### Tables: keys strictly ascending, no key without a value -/

/-- The value a table holds for a key. -/
def tableGet {α : Type} : List (Nat × α) → Nat → Option α
  | [], _ => none
  | (k, v) :: rest, key => if k = key then some v else tableGet rest key

/-- The table with a key's value set, its keys kept ascending. -/
def tableSet {α : Type} : List (Nat × α) → Nat → α → List (Nat × α)
  | [], key, value => [(key, value)]
  | (k, v) :: rest, key, value =>
    if key < k then (key, value) :: (k, v) :: rest
    else if key = k then (key, value) :: rest
    else (k, v) :: tableSet rest key value

/-- The table without a key. -/
def tableErase {α : Type} (table : List (Nat × α)) (key : Nat) : List (Nat × α) := table.filter fun e => e.1 != key

/-- The canonical form of a table: its keys strictly ascend. -/
abbrev tableAscending {α : Type} (table : List (Nat × α)) : Prop := (table.map Prod.fst).Pairwise (· < ·)

/-! ### The directory (R1 to R3) -/

/-- R2's order of codes: letter by letter, a code that is the beginning of another sorting first. -/
def codeLess : Code → Code → Bool
  | [], [] => false
  | [], _ :: _ => true
  | _ :: _, [] => false
  | a :: as, b :: bs => if a.toNat < b.toNat then true else if a = b then codeLess as bs else false

/-- The entry whose code equals a code, whatever its kind. -/
def findEntry : List Entry → Code → Option Entry
  | [], _ => none
  | e :: rest, code => if e.code = code then some e else findEntry rest code

/-- R3's lookup: the record number a code names. -/
def lookupCode (entries : List Entry) (code : Code) : Option Nat := (findEntry entries code).map Entry.record

/-- An entry joins the directory in its place in the order (R1). -/
def insertEntry : List Entry → Entry → List Entry
  | [], e => [e]
  | x :: rest, e => if codeLess e.code x.code then e :: x :: rest else x :: insertEntry rest e

/-- How many entries of a kind the directory holds (R1). -/
def countEntries (entries : List Entry) (kind : EntryKind) : Nat := (entries.filter fun e => decide (e.kind = kind)).length

/-! ### Records -/

/-- The occupied record of a number, if it is occupied (R19). -/
def State.record? (s : State) (r : Nat) : Option QuoteRecord := tableGet s.store.records r

/-- An occupied record's fields replaced. -/
def State.setRecord (s : State) (r : Nat) (record : QuoteRecord) : State :=
  { s with store := { s.store with records := tableSet s.store.records r record } }

/-! ### Cells and the dirty queue (R98, R101) -/

/-- A cell's number in the cell map: panel × 64 + cell (section 5.1). -/
def cellNumber (panel cell : Nat) : Nat := panel * 64 + cell

/-- A cell's panel. -/
def panelOf (cell : Nat) : Nat := cell / 64

/-- Marking one cell dirty: it keeps its place when queued and joins the tail otherwise (R101). -/
def markCell (dirty : List Nat) (cell : Nat) : List Nat := if cell ∈ dirty then dirty else dirty ++ [cell]

/-- Marking several cells in the order given (R101). -/
def markCells (dirty : List Nat) (cells : List Nat) : List Nat := cells.foldl markCell dirty

/-- The board with several cells marked dirty. -/
def Board.mark (b : Board) (cells : List Nat) : Board := { b with dirty := markCells b.dirty cells }

/-- The assigned cells in ascending order of panel and then of cell (R102). -/
def Board.assigned (b : Board) : List Nat := b.cellMap.map Prod.fst

/-- A panel's assigned cells in ascending order (R109, R111). -/
def Board.assignedOf (b : Board) (panel : Nat) : List Nat := b.assigned.filter fun c => decide (panelOf c = panel)

/-- A record's cells marked dirty. -/
def State.markCells (s : State) (cells : List Nat) : State := { s with board := s.board.mark cells }

/-- Every assigned cell marked dirty (R102). -/
def State.markAssigned (s : State) : State := { s with board := s.board.mark s.board.assigned }

/-- A record's cell list, empty where no record is occupied. -/
def cellsOf : Option QuoteRecord → List Nat
  | none => []
  | some q => q.cells

/-- A cell taken out of a record's cell list, the other cell staying in it (R12, R98). -/
def State.detachCell (s : State) (cell : Nat) : State :=
  match tableGet s.board.cellMap cell with
  | none => s
  | some r =>
    match s.record? r with
    | none => s
    | some q => s.setRecord r { q with cells := q.cells.filter fun c => c != cell }

/-- The cell map made to name a record for a cell, or unassigned. -/
def State.nameCell (s : State) (cell : Nat) (record : Option Nat) : State :=
  { s with board := { s.board with cellMap :=
      match record with
      | none => tableErase s.board.cellMap cell
      | some r => tableSet s.board.cellMap cell r } }

/-! ### Tapes -/

/-- One of the two tapes. -/
def State.tape (s : State) : TapeId → Tape
  | .a => s.tapeA
  | .b => s.tapeB

/-- One of the two tapes replaced. -/
def State.setTape (s : State) (id : TapeId) (tape : Tape) : State :=
  match id with
  | .a => { s with tapeA := tape }
  | .b => { s with tapeB := tape }

/-- A tape's ribbon rate (Table 9-3). -/
def Params.rate (p : Params) : TapeId → Nat
  | .a => p.ribbonRateA
  | .b => p.ribbonRateB

/-! ### Stations -/

/-- One station record changed; a number above 15 changes none. -/
def Desk.modifyStation (d : Desk) (n : Nat) (f : Station → Station) : Desk :=
  { d with stations := d.stations.modify n f }

/-- The stations in round order after one: the next first and that one last (R124). -/
def roundOrder (last : Nat) : List Nat := (List.range 16).map fun i => (last + 1 + i) % 16

/-- The first station in round order after `last` that a test holds of. -/
def firstInRound (stations : List Station) (last : Nat) (test : Nat → Station → Bool) : Option Nat :=
  (roundOrder last).find? fun n =>
    match stations[n]? with
    | none => false
    | some st => test n st

/-! ### The reply queue (R169) -/

/-- How a command reached the unit manager: with a place reserved for its reply, or broadcast (section 9.2). -/
inductive Route where
  | place
  | broadcast
  deriving DecidableEq, Repr

/-- How many places hold a reply: those whose sending has not begun, and the place of the reply being sent, which becomes
free at the end of the sending (R169). -/
def Repeater.filledPlaces (f : Repeater) : Nat :=
  f.filled.length +
    (match f.out with
     | .reply _ _ true => 1
     | _ => 0)

/-- How many of the four places are reserved or filled (R169). -/
def Repeater.occupied (f : Repeater) : Nat := f.reserved + f.filledPlaces

/-- A reply place is free (R167). -/
def Repeater.placeFree (f : Repeater) : Bool := decide (f.occupied < 4)

/-- One place reserved for a command taken (R167). -/
def State.reservePlace (s : State) : State := { s with feed := { s.feed with reserved := s.feed.reserved + 1 } }

/-- A reply put in a reserved place, its hold beginning now (R169, R170). -/
def State.fillPlace (s : State) (echo : Nat) (status : Status) (body : ReplyBody) : State :=
  { s with feed := { s.feed with
      reserved := s.feed.reserved - 1
      filled := s.feed.filled ++
        [{ reply := { address := s.manager.address, echo := echo, status := status, body := body }
           expiresAt := after s.clock (s.params.replyHold * 10) }] } }

/-- The outcome of a command: its reply placed when a place is held for it, nothing for a broadcast (R180). -/
def State.answer (s : State) (route : Route) (echo : Nat) (status : Status) (body : ReplyBody) : State :=
  match route with
  | .place => s.fillPlace echo status body
  | .broadcast => s

/-- A refusal: the status alone (section 9.2). -/
def State.refuse (s : State) (route : Route) (echo : Nat) (status : Status) : State := s.answer route echo status .empty

end Sys2Proof.Machine
end

