-- ==== Sys2Proof/Machine/Operands.lean ====
section
/-! DEFINITION. The checks and clamps of operands: what is structurally wrong and refused, and what is an operating value
and clamped (0.6.11). -/

namespace Sys2Proof.Machine

/-- A letter A to Z. -/
def isLetter (c : Char) : Bool := decide (65 ≤ c.toNat) && decide (c.toNat ≤ 90)

/-- A code is well formed: 1 to 5 letters (R2). -/
def wellFormedCode (code : Code) : Bool := decide (1 ≤ code.length) && decide (code.length ≤ 5) && code.all isLetter

/-- A price: 1 to 1,048,575 PU (0.6.2). -/
def isPrice (p : Nat) : Bool := decide (1 ≤ p) && decide (p ≤ 1048575)

/-- An optional price field that is absent or a price. -/
def isPriceOption : Option Nat → Bool
  | none => true
  | some p => isPrice p

/-- A print's volume: 1 to 16,777,215 shares (0.6.3). -/
def isVolume (v : Nat) : Bool := decide (1 ≤ v) && decide (v ≤ 16777215)

/-- A grid base: 8, 16, 32 or 64 (0.6.2). -/
def isGrid (g : Nat) : Bool := decide (g = 8) || decide (g = 16) || decide (g = 32) || decide (g = 64)

/-- A value clamped into a range (0.6.1). -/
def clamp (low high value : Nat) : Nat := min high (max low value)

/-- Monitor settings as stored: T as given, H at most T − 1, n 1 to 15, k 0 to 7 (R10). -/
def clampSettings (m : MonSettings) : MonSettings where
  t := min 65535 m.t
  h := min m.h (min 65535 m.t - 1)
  n := clamp 1 15 m.n
  k := min 7 m.k

/-- The condition a PRINT's character names (R191, R33). -/
def conditionOf : Nat → Option Condition
  | 0 => some .regular
  | 1 => some .opened
  | 2 => some .sld
  | _ => none

/-- The halt reason a HALT's character names (R191, R33). -/
def reasonOf : Nat → Option HaltReason
  | 0 => some .news
  | 1 => some .imbalance
  | 2 => some .other
  | _ => none

/-- The mode a SET STATION or SET MODE character names (Table 10-3). -/
def modeOf : Nat → Option StationMode
  | 0 => some .event
  | 1 => some .stream
  | 2 => some .quiet
  | _ => none

/-- A QUOTE side that is absent or a price with its size (R33). -/
def sideSound : Option (Nat × Nat) → Bool
  | none => true
  | some (price, _) => isPrice price

/-- R33's field checks, all but DAY START's check of the session. -/
def fieldsSound : MarketMsg → Bool
  | .print code price volume condition => wellFormedCode code && isPrice price && isVolume volume && (conditionOf condition).isSome
  | .quote code bid ask => wellFormedCode code && sideSound bid && sideSound ask
  | .cancel code sequence price volume => wellFormedCode code && decide (sequence ≤ 4095) && isPrice price && isVolume volume
  | .halt code reason => wellFormedCode code && (reasonOf reason).isSome
  | .resume code => wellFormedCode code
  | .figures code prevClose opening high low _ =>
    wellFormedCode code && isPrice prevClose && isPriceOption opening && isPriceOption high && isPriceOption low
  | .notice _ => true
  | .dayStart => true
  | .session value => decide (value ≤ 1)
  | .time hours minutes seconds => decide (hours ≤ 23) && decide (minutes ≤ 59) && decide (seconds ≤ 59)

/-- R33 in full: the field checks, and DAY START taken only while the session is CLOSED. -/
def messageSound (session : Session) (msg : MarketMsg) : Bool :=
  match msg with
  | .dayStart => decide (session = .closed)
  | other => fieldsSound other

/-- R10's structural check of LOAD SYMBOL's arguments. A cell list is 0 to 2 cells (section 1.3): the format has two slots
and can carry no third. -/
def loadArgsSound (a : LoadArgs) : Bool :=
  wellFormedCode a.code && decide (a.record < 512) && isGrid a.grid && decide (a.cells.length ≤ 2) &&
    a.cells.all (fun c => decide (c.1 ≤ 3) && decide (c.2 ≤ 63)) && decide a.cells.Nodup && isPriceOption a.prevClose

/-- LOAD WATCH's structural check (R151). -/
def watchArgsSound (station : Nat) (entries : List WatchArgs) : Bool :=
  decide (station ≤ 15) && decide (entries.length ≤ 12) &&
    entries.all (fun e => decide (e.record < 512) && isPriceOption e.above && isPriceOption e.below) &&
    decide (entries.map WatchArgs.record).Nodup

end Sys2Proof.Machine
end

