-- ==== Sys2Proof/Machine/Flags.lean ====
section
/-! DEFINITION. What the part shows as conditions computed from its state: the UNIT ATTENTION lamp, the attributes of a
cell, the stale mark of a line, whether lookups are stopped, whether a price lies on its grid. -/

namespace Sys2Proof.Machine

/-- The five lamp conditions (R189). -/
def State.lamp (s : State) : LampConditions where
  held := decide (s.manager.state = .held)
  feedLost := decide (s.feed.feed = .lost)
  errorLimit := s.feed.errorLimit
  deskStuck := decide (s.desk.line = .stuck)
  panelOut := s.board.panels.any fun p => decide (p.state = .out)

/-- The UNIT ATTENTION output: lit while one condition or more holds (R189). -/
def State.unitAttention (s : State) : Bool :=
  s.lamp.held || s.lamp.feedLost || s.lamp.errorLimit || s.lamp.deskStuck || s.lamp.panelOut

/-- The monitor is ACTIVE or RELEASING (R72, R100). -/
def Monitor.moving (m : Monitor) : Bool := decide (m.state = .active) || decide (m.state = .releasing)

/-- The feed is declared lost, so cells and lines carry STALE (R100, R145). -/
def State.stale (s : State) : Bool := decide (s.feed.feed = .lost)

/-- The grid step: 64 divided by the grid base, in PU (section 2.1). -/
def gridStep (grid : Nat) : Nat := 64 / grid

/-- A price is on its symbol's grid (R24). -/
def onGrid (grid price : Nat) : Bool := decide (price % gridStep grid = 0)

/-- The directory is in its working phase. -/
def Directory.isWorking (d : Directory) : Bool :=
  match d.operation with
  | .working _ _ => true
  | _ => false

/-- The directory is DRAINING. -/
def Directory.isDraining (d : Directory) : Bool :=
  match d.operation with
  | .draining _ _ => true
  | _ => false

/-- The directory holds no operation. -/
def Directory.isIdle (d : Directory) : Bool :=
  match d.operation with
  | .idle => true
  | _ => false

/-- Lookups stop while a directory operation is WORKING or a DAY START walk is in flight (R3). -/
def State.lookupsStopped (s : State) : Bool := s.directory.isWorking || s.store.walk.isSome

/-- The error-limit flag after the check failures counter or the limit has changed: set at the limit, never cleared by
this test (R168). -/
def errorLimitAfter (flag : Bool) (failures limit : Nat) : Bool := flag || decide (limit ≤ failures)

end Sys2Proof.Machine
end

