-- ==== Sys2Proof/Machine/Text.lean ====
section
/-! DEFINITION. Text as the part shows it: numbers, prices and changes on the grid, names of states, and floor time
(R23, R25, R84, R145, section 10.4). The minus sign is the character the manual prints (assumption 15). -/

namespace Sys2Proof.Machine

/-- A decimal digit. -/
def digit (d : Nat) : Char := Char.ofNat (48 + d % 10)

/-- A number's decimal digits without leading zeros, up to `places` of them. -/
def decimalDigits : Nat → Nat → Text
  | 0, _ => []
  | places + 1, n => if n < 10 then [digit n] else decimalDigits places (n / 10) ++ [digit n]

/-- A number in decimal without leading zeros; every number the part shows has at most ten digits. -/
def decimal (n : Nat) : Text := decimalDigits 20 n

/-- Two decimal digits of floor time. -/
def twoDigits (n : Nat) : Text := [digit (n / 10), digit n]

/-- Floor time as hh:mm:ss (section 10.4). -/
def timeText (t : FloorTime) : Text := twoDigits t.hours ++ [':'] ++ twoDigits t.minutes ++ [':'] ++ twoDigits t.seconds

/-- An amount rounded down to the grid (R23). -/
def roundToGrid (grid amount : Nat) : Nat := amount / gridStep grid * gridStep grid

/-- The shown fraction of a rounded amount: over 64, in lowest terms (R23). -/
def fractionText (rest : Nat) : Text :=
  decimal (rest / Nat.gcd rest 64) ++ ['/'] ++ decimal (64 / Nat.gcd rest 64)

/-- R23's three forms, with the text that stands for the dollars given. -/
def amountForm (dollarsText : Text) (dollars rest : Nat) : Text :=
  if rest = 0 then dollarsText
  else if dollars = 0 then fractionText rest
  else dollarsText ++ [' '] ++ fractionText rest

/-- A rounded amount's text (R23). -/
def amountText (amount : Nat) : Text := amountForm (decimal (amount / 64)) (amount / 64) (amount % 64)

/-- A price shown on its grid (R23). -/
def priceText (grid price : Nat) : Text := amountText (roundToGrid grid price)

/-- A price with its dollars cut to their last digit (R84). -/
def cutPriceText (grid price : Nat) : Text :=
  let amount := roundToGrid grid price
  amountForm [digit (amount / 64)] (amount / 64) (amount % 64)

/-- The net change: last minus previous close, absent when either is (R25). -/
def netChange (q : QuoteRecord) : Option Int :=
  match q.last, q.prevClose with
  | some (last, _), some prevClose => some ((last : Int) - (prevClose : Int))
  | _, _ => none

/-- The sign of a change that is not 0 (R25). -/
def signText (c : Int) : Text := if 0 ≤ c then ['+'] else ['−']

/-- A change shown on the grid (R25). -/
def changeText (grid : Nat) (c : Int) : Text :=
  if c = 0 then ['U', 'N', 'C', 'H'] else signText c ++ priceText grid c.natAbs

/-- A halt reason's name. -/
def reasonText : HaltReason → Text
  | .news => ['N', 'E', 'W', 'S']
  | .imbalance => ['I', 'M', 'B', 'A', 'L', 'A', 'N', 'C', 'E']
  | .other => ['O', 'T', 'H', 'E', 'R']

/-- A tick on a desk line; NONE is shown blank (R145). -/
def tickText : Tick → Text
  | .noTick => []
  | .up => ['U', 'P']
  | .down => ['D', 'O', 'W', 'N']
  | .zeroPlus => ['Z', 'E', 'R', 'O', '-', 'P', 'L', 'U', 'S']
  | .zeroMinus => ['Z', 'E', 'R', 'O', '-', 'M', 'I', 'N', 'U', 'S']

/-- A move direction's name. -/
def directionText : Direction → Text
  | .up => ['U', 'P']
  | .down => ['D', 'O', 'W', 'N']

/-- A monitor state's name. -/
def monitorText : MonitorState → Text
  | .calm => ['C', 'A', 'L', 'M']
  | .arming => ['A', 'R', 'M', 'I', 'N', 'G']
  | .active => ['A', 'C', 'T', 'I', 'V', 'E']
  | .releasing => ['R', 'E', 'L', 'E', 'A', 'S', 'I', 'N', 'G']

/-- An optional text: blank when absent (section 1.6). -/
def blankOr {α : Type} (render : α → Text) : Option α → Text
  | none => []
  | some a => render a

end Sys2Proof.Machine
end

