-- ==== Sys2Proof/Machine/Monitor.lean ====
section
/-! DEFINITION. The move monitor of one record: what a regular print does to it, and the events that calm it (Chapter 3). -/

namespace Sys2Proof.Machine

/-- The signed difference D of a print at price P from the baseline B, in 1/256 PU (R58). -/
def monitorDifference (price baseline : Nat) : Int := (price : Int) * 256 - (baseline : Int)

/-- The deviation: |D| divided by 256, rounded down (R58). -/
def deviation (price baseline : Nat) : Nat := (monitorDifference price baseline).natAbs / 256

/-- The baseline moved by a print: D divided by 2^k, truncated toward zero, added (R59). -/
def filteredBaseline (k price baseline : Nat) : Nat :=
  ((baseline : Int) + Int.tdiv (monitorDifference price baseline) ((2 ^ k : Nat) : Int)).toNat

/-- A monitor set to CALM: count 0, move direction and hold deadline absent, baseline kept. -/
def Monitor.calmed (m : Monitor) : Monitor := { m with state := .calm, count := 0, direction := none, hold := none }

/-- A monitor brought into ACTIVE by a print (R64): the direction from the sign of D, the hold deadline from the move
hold in minutes, the baseline kept. -/
def Monitor.entered (m : Monitor) (difference : Int) (now : Reading) (moveHold : Nat) : Monitor :=
  { m with state := .active, count := 0
           direction := some (if 0 < difference then .up else .down)
           hold := some (after now (moveHold * 60000)) }

/-- The monitor after a regular print, and whether the print brought it into ACTIVE from CALM or ARMING (R58 to R65,
Table 3-2). -/
def Monitor.take (m : Monitor) (price : Nat) (now : Reading) (moveHold : Nat) : Monitor × Bool :=
  match m.baseline with
  | none => ({ m with baseline := some (price * 256) }, false)
  | some b =>
    let difference := monitorDifference price b
    let dev := deviation price b
    let moved := some (filteredBaseline m.settings.k price b)
    let release := m.settings.t - m.settings.h
    if m.settings.t = 0 then ({ m.calmed with baseline := moved }, false)
    else
      match m.state with
      | .calm =>
        if dev < m.settings.t then ({ m with count := 0, baseline := moved }, false)
        else if 2 ≤ m.settings.n then ({ m with state := .arming, count := 1, baseline := moved }, false)
        else (m.entered difference now moveHold, true)
      | .arming =>
        if dev < m.settings.t then ({ m with state := .calm, count := 0, baseline := moved }, false)
        else if m.count + 1 = m.settings.n then (m.entered difference now moveHold, true)
        else ({ m with count := m.count + 1, baseline := moved }, false)
      | .active =>
        if release ≤ dev then ({ m with count := 0 }, false)
        else if 2 ≤ m.settings.n then ({ m with state := .releasing, count := 1 }, false)
        else (m.calmed, false)
      | .releasing =>
        if release ≤ dev then ({ m with state := .active, count := 0 }, false)
        else if m.count + 1 = m.settings.n then (m.calmed, false)
        else ({ m with count := m.count + 1 }, false)

/-- A price level as a baseline: last × 256 when last is present, otherwise previous close × 256 when that is, otherwise
the baseline as it stands (R47, R66, R71). -/
def settledBaseline (last : Option (Nat × FloorTime)) (prevClose baseline : Option Nat) : Option Nat :=
  match last, prevClose with
  | some (price, _), _ => some (price * 256)
  | none, some price => some (price * 256)
  | none, none => baseline

/-- A record's monitor calmed with its baseline set from last or previous close (R66, R71). -/
def QuoteRecord.recentred (q : QuoteRecord) : QuoteRecord :=
  { q with monitor := { q.monitor.calmed with baseline := settledBaseline q.last q.prevClose q.monitor.baseline } }

/-- A fresh record's monitor (R11, R56). -/
def Monitor.loaded (settings : MonSettings) (prevClose : Option Nat) : Monitor where
  settings := settings
  state := .calm
  count := 0
  baseline := prevClose.map (· * 256)
  direction := none
  hold := none

end Sys2Proof.Machine
end

