-- ==== Sys2Proof/Machine/Board.lean ====
section
/-! DEFINITION. The price boards: rendering a cell, assembling a block, a block's outcome, the sweep, and the board's
commands (Chapter 5, section 10.5). -/

namespace Sys2Proof.Machine

/-! ### What a cell shows (R26, R99, R100) -/

/-- The price field of a cell: empty, dashes above 9,999 shown dollars, or the price (R26, R99). -/
def cellPrice (q : QuoteRecord) : CellField :=
  match q.last with
  | none => .empty
  | some (last, _) =>
    if 9999 < roundToGrid q.grid last / 64 then .dashes [] else .shown (priceText q.grid last)

/-- The change field of a cell: empty, the sign and dashes above 999 dollars, or the change (R26, R99). -/
def cellChange (q : QuoteRecord) : CellField :=
  match netChange q with
  | none => .empty
  | some c =>
    if 999 < roundToGrid q.grid c.natAbs / 64 then .dashes (signText c) else .shown (changeText q.grid c)

/-- A field that shows dashes (R26). -/
def CellField.isDashes : CellField → Bool
  | .dashes _ => true
  | _ => false

/-- Day volume in hundreds, held at 999,999 (R26). -/
def cellVolume (volume : Nat) : Nat := min 999999 (volume / 100)

/-- The update of an unassigned cell (R99). -/
def blankUpdate (cell : Nat) : CellUpdate where
  cell := cell % 64
  symbol := []
  price := .empty
  change := .empty
  volume := 0
  tick := .noTick
  attributes := { blank := true, halted := false, fast := false, stale := false, overflow := false }

/-- The update of an assigned cell, from its record and the feed state as they stand (R99, R100). -/
def recordUpdate (cell : Nat) (stale : Bool) (q : QuoteRecord) : CellUpdate where
  cell := cell % 64
  symbol := q.code
  price := cellPrice q
  change := cellChange q
  volume := cellVolume q.volume
  tick := q.tick
  attributes :=
    { blank := q.last.isNone
      halted := q.halted.isSome
      fast := q.monitor.moving
      stale := stale
      overflow := (cellPrice q).isDashes || (cellChange q).isDashes }

/-- The record a cell names. -/
def State.cellRecord (s : State) (cell : Nat) : Option QuoteRecord :=
  (tableGet s.board.cellMap cell).bind s.record?

/-- A cell's update as rendered at the assembly of its block (R99). -/
def State.cellUpdate (s : State) (cell : Nat) : CellUpdate :=
  match s.cellRecord cell with
  | none => blankUpdate cell
  | some q => recordUpdate cell s.stale q

/-! ### Characters of a block (section 10.5) -/

/-- A character of shown text on BOARD OUT (assumption 15). -/
def boardCharacter (c : Char) : Byte := if c = '−' then 45#8 else characterOf c

/-- Text filled on the right with spaces to a width (section 10.5). -/
def filled (width : Nat) (text : Text) : Text := (text ++ List.replicate width ' ').take width

/-- The text of a price field or change field, the dashes a free value (assumption 10). -/
def fieldText (dashes : Text) : CellField → Text
  | .empty => []
  | .shown text => text
  | .dashes sign => sign ++ dashes

/-- The tick character (section 10.5). -/
def tickNumber : Tick → Nat
  | .noTick => 0
  | .up => 1
  | .down => 2
  | .zeroPlus => 3
  | .zeroMinus => 4

/-- The attributes character, BLANK in the lowest bit (section 10.5). -/
def attributeNumber (a : Attributes) : Nat := flagBits [a.blank, a.halted, a.fast, a.stale, a.overflow]

/-- The 34 characters of a cell update (section 10.5). -/
def updateCharacters (u : CellUpdate) : List Byte :=
  charactersOf 1 u.cell ++ codeCharacters u.symbol ++
    (filled 11 (fieldText Config.priceDashes u.price)).map boardCharacter ++
    (filled 12 (fieldText Config.changeDashes u.change)).map boardCharacter ++
    charactersOf 3 u.volume ++ charactersOf 1 (tickNumber u.tick) ++ charactersOf 1 (attributeNumber u.attributes)

/-- The characters of a block that its check sums: the panel, the count and the cell updates (section 10.5). -/
def blockBody (panel : Nat) (updates : List CellUpdate) : List Byte :=
  charactersOf 1 panel ++ charactersOf 1 updates.length ++ (updates.map updateCharacters).flatten

/-- The check of a block: the sum of every character from panel to the end of the last update, modulo 65,536. -/
def blockCheck (panel : Nat) (updates : List CellUpdate) : Nat := ((blockBody panel updates).map BitVec.toNat).sum % 65536

/-- A block as BOARD OUT sends it: the start character, the panel, the count and the updates, and the check in two characters
(section 10.5). -/
def Block.characters (b : Block) : List Byte := 170#8 :: (blockBody b.panel b.updates ++ charactersOf 2 b.check)

/-! ### Assembly (R103) -/

/-- A panel's state; a number above 3 names no panel and counts as out. -/
def Board.panelState (b : Board) (panel : Nat) : PanelState :=
  match b.panels[panel]? with
  | none => .out
  | some p => p.state

/-- A PROBING panel that has no assigned cells: it is sent no block (R110). -/
def Board.unprobed (b : Board) (panel : Nat) : Bool :=
  decide (b.panelState panel = .probing) && b.cellMap.all fun e => panelOf e.1 != panel

/-- A cell that no block takes: its panel is OUT (R103), or PROBING with no assigned cells (R110). -/
def Board.passedOver (b : Board) (c : Nat) : Bool :=
  decide (b.panelState (panelOf c) = .out) || b.unprobed (panelOf c)

/-- What is left of cells passed over at the head: those of OUT panels leave the queue (R103), and whether those of a PROBING
panel with no assigned cells keep their places is a free value (assumption 40). -/
def Board.waiting (b : Board) (cells : List Nat) : List Nat :=
  cells.filter fun c => Config.unprobedCellWaits && b.unprobed (panelOf c)

/-- Up to `room` cells of a panel taken from a queue in order, and the cells that keep their places (R103). -/
def takePanel (panel : Nat) : Nat → List Nat → List Nat × List Nat
  | _, [] => ([], [])
  | 0, queue => ([], queue)
  | room + 1, c :: rest =>
    if panelOf c = panel then
      let r := takePanel panel room rest
      (c :: r.1, r.2)
    else
      let r := takePanel panel (room + 1) rest
      (r.1, c :: r.2)

/-- A block for a panel with its cells, rendered and given its deadline (R103). -/
def State.makeBlock (s : State) (panel : Nat) (cells : List Nat) : Block where
  panel := panel
  cells := cells
  updates := cells.map s.cellUpdate
  check := blockCheck panel (cells.map s.cellUpdate)
  deadline := after s.clock s.params.panelWindow

/-- A block assembled when the board is RUNNING, no block is in flight and the queue holds a cell that a block takes (R103,
R110). Unassigned cells are taken like any other, but for those of a PROBING panel with no assigned cells. -/
def State.assemble (s : State) : State :=
  if s.board.pause = .running ∧ s.board.block = none then
    let front := s.board.waiting (s.board.dirty.takeWhile s.board.passedOver)
    match s.board.dirty.dropWhile s.board.passedOver with
    | [] => { s with board := { s.board with dirty := front } }
    | c :: rest =>
      let taken := takePanel (panelOf c) (s.params.blockSize - 1) rest
      { s with board := { s.board with
          dirty := front ++ taken.2
          block := some (s.makeBlock (panelOf c) (c :: taken.1)) } }
  else s

/-! ### Outcomes (R104 to R108) -/

/-- One panel changed. -/
def Board.modifyPanel (b : Board) (panel : Nat) (f : Panel → Panel) : Board := { b with panels := b.panels.modify panel f }

/-- The block leaves flight, and a PAUSING board becomes PAUSED (R105, R107, R113). -/
def Board.outcomeTaken (b : Board) : Board :=
  { b with block := none, pause := if b.pause = .pausing then .paused else b.pause }

/-- A block succeeds (R105, R110). -/
def Board.succeed (b : Board) (panel : Nat) : Board :=
  (b.modifyPanel panel fun p => { state := if p.state = .probing then .inService else p.state, failures := 0 }).outcomeTaken

/-- A panel becomes OUT: its count stands at 8 and its cells leave the dirty queue (R108). -/
def Board.giveUp (b : Board) (panel : Nat) : Board :=
  { b.modifyPanel panel (fun _ => { state := .out, failures := 8 }) with
    dirty := b.dirty.filter fun c => panelOf c != panel }

/-- The cells of a failed block that are still assigned join the tail again, unless already queued (R107). -/
def Board.requeue (b : Board) (cells : List Nat) : Board :=
  b.mark (cells.filter fun c => (tableGet b.cellMap c).isSome)

/-- What a failure does to the block's panel and cells, by the panel's state at the outcome (R107). -/
def Board.failPanel (b : Board) (blk : Block) : Board :=
  match b.panels[blk.panel]? with
  | none => b
  | some p =>
    match p.state with
    | .inService =>
      if p.failures + 1 < 8 then (b.modifyPanel blk.panel fun q => { q with failures := q.failures + 1 }).requeue blk.cells
      else b.giveUp blk.panel
    | .probing => b.giveUp blk.panel
    | .out => b

/-- The block in flight fails: counted, its panel dealt with, and it leaves flight (R107). -/
def State.failBlock (s : State) (blk : Block) : State :=
  { s with board := (s.board.failPanel blk).outcomeTaken
           counters := { s.counters with boardFailures := bump s.counters.boardFailures 1 } }

/-! ### The board's commands and events -/

/-- BLOCK_ASSEMBLY (R103). -/
def execBlockAssembly (s : State) : Host.Outcome State Fault Refusal := .next s.assemble

/-- BOARD_ANSWER: a whole answer against the block in flight (R104). A panel character above 3 is not readable (R194). -/
def execBoardAnswer (panel count check : Byte) (s : State) : Host.Outcome State Fault Refusal :=
  match s.board.block with
  | none => .next s
  | some blk =>
    if 3 < panel.toNat ∨ panel.toNat ≠ blk.panel then .next s
    else if count.toNat = blk.cells.length ∧ check.toNat = blk.check % 256 then
      .next { s with board := s.board.succeed blk.panel }
    else .next (s.failBlock blk)

/-- The panel number of an answer cut by a gap, when its start and panel characters have arrived and the panel is 0 to 3
(R194). -/
def readablePanel : List Byte → Option Nat
  | start :: panel :: _ => if start = 171#8 ∧ panel.toNat ≤ 3 then some panel.toNat else none
  | _ => none

/-- BOARD_ANSWER_GAP: an answer cut by a gap fails the block when its panel number can be read and is the block's
(R104, R194). -/
def execBoardAnswerGap (characters : List Byte) (s : State) : Host.Outcome State Fault Refusal :=
  match s.board.block with
  | none => .next s
  | some blk => if readablePanel characters = some blk.panel then .next (s.failBlock blk) else .next s

/-- BLOCK_DEADLINE: the unit clock has reached the deadline of the block in flight (R106). -/
def execBlockDeadline (s : State) : Host.Outcome State Fault Refusal :=
  match s.board.block with
  | none => .next s
  | some blk => if reached s.clock blk.deadline then .next (s.failBlock blk) else .next s

/-- The sweep of one panel: an OUT panel becomes PROBING, and its assigned cells are marked (R109). -/
def Board.sweepPanel (b : Board) (panel : Nat) : Board :=
  (b.modifyPanel panel fun p => { p with state := if p.state = .out then .probing else p.state }).mark (b.assignedOf panel)

/-- The sweep of the four panels in order (R109). -/
def Board.sweep (b : Board) : Board := (((b.sweepPanel 0).sweepPanel 1).sweepPanel 2).sweepPanel 3

/-- SWEEP_EXPIRY: the sweep timer has expired (R109). -/
def execSweepExpiry (s : State) : Host.Outcome State Fault Refusal :=
  if reached s.clock s.board.sweepAt then
    .next { s with board := { s.board.sweep with sweepAt := after s.clock (s.params.sweepInterval * 1000) } }
  else .next s

/-- SET CELL's effect on the cell map and the cell lists, by the five cases of R98. -/
def State.assignCell (s : State) (cell : Nat) (record : Option Nat) : State :=
  match record with
  | none => (s.detachCell cell).nameCell cell none
  | some r =>
    if tableGet s.board.cellMap cell = some r then s
    else
      let s1 := s.detachCell cell
      match s1.record? r with
      | none => s
      | some q => (s1.setRecord r { q with cells := q.cells ++ [cell] }).nameCell cell (some r)

/-- SET CELL's refusals, in the order of R98. -/
def State.setCellRefusal (s : State) (panel cell : Nat) (record : Option Nat) : Option Status :=
  if 3 < panel ∨ 63 < cell then some .badArgument
  else
    match record with
    | none => none
    | some r =>
      if 512 ≤ r then some .badArgument
      else
        match s.record? r with
        | none => some .notFound
        | some q => if 2 ≤ q.cells.length ∧ cellNumber panel cell ∉ q.cells then some .noRoom else none

/-- SET CELL as the unit manager deals with it (R98). -/
def dealSetCell (panel cell : Nat) (record : Option Nat) (route : Route) (s : State) : State :=
  match s.setCellRefusal panel cell record with
  | some status => s.refuse route 8 status
  | none =>
    let s1 := (s.assignCell (cellNumber panel cell) record).markCells [cellNumber panel cell]
    s1.answer route 8 .done (.cell panel cell (tableGet s1.board.cellMap (cellNumber panel cell)))

/-- PAUSE BOARD (R112). -/
def dealPauseBoard (route : Route) (s : State) : State :=
  let pause := if s.board.pause = .running then (if s.board.block.isSome then .pausing else .paused) else s.board.pause
  let s1 := { s with board := { s.board with pause := pause } }
  s1.answer route 14 .done (.pauseState pause)

/-- CONTINUE BOARD: RUNNING, and a block assembled when one is due (R114). -/
def dealContinueBoard (route : Route) (s : State) : State :=
  let s1 := { s with board := { s.board with pause := .running } }
  let s2 := if s.board.pause = .running then s1 else s1.assemble
  s2.answer route 15 .done (.pauseState .running)

/-- RESTORE PANEL (R111). -/
def dealRestorePanel (panel : Nat) (route : Route) (s : State) : State :=
  if 3 < panel then s.refuse route 16 .badArgument
  else
    let b := s.board.modifyPanel panel fun _ => Panel.fresh
    let s1 := { s with board := b.mark (b.assignedOf panel) }
    s1.answer route 16 .done (.panelState .inService)

end Sys2Proof.Machine
end

