-- ==== Sys2Proof/Machine/Watch.lean ====
section
/-! DEFINITION. Watch lists, pending marks and alerts: what an event on a record does to the entries that name it, and how
entries leave a list with their marks, alerts and page lines (Chapter 7, R17). -/

namespace Sys2Proof.Machine

/-! ### Alerts (R156, R157) -/

/-- A raised alert joins the tail, or replaces the entry's queued alert in place (R157). -/
def raiseAlert (alerts : List Alert) (a : Alert) : List Alert :=
  if alerts.any (fun x => decide (x.record = a.record)) then
    alerts.map fun x => if x.record = a.record then a else x
  else alerts ++ [a]

/-- Whether a change of last crosses a level of an entry, and which (Table 7-5); an absent last crosses none. -/
def crossing (e : WatchEntry) (old new : Option Nat) : Option AlertReason :=
  match old, new with
  | some before, some now =>
    if e.above.any (fun level => decide (before < level) && decide (level ≤ now)) then some .above
    else if e.below.any (fun level => decide (level < before) && decide (now ≤ level)) then some .below
    else none
  | _, _ => none

/-- An entry after an application that changes last, with the alert it raises: ABOVE or BELOW fires its level once and
stands before MOVE (R37, R156). `moved` says the monitor entered ACTIVE on this application. -/
def lastChanged (old new : Option Nat) (moved : Bool) (e : WatchEntry) : WatchEntry × Option Alert :=
  match crossing e old new with
  | some .above => ({ e with above := none }, some { record := e.record, reason := .above, price := new })
  | some .below => ({ e with below := none }, some { record := e.record, reason := .below, price := new })
  | _ => if moved && e.move then (e, some { record := e.record, reason := .move, price := new }) else (e, none)

/-- An entry kept, with an alert of a reason and price for it (R45, R47). -/
def alertOf (reason : AlertReason) (price : Option Nat) (e : WatchEntry) : WatchEntry × Option Alert :=
  (e, some { record := e.record, reason := reason, price := price })

/-- An entry kept, with no alert. -/
def noAlert (e : WatchEntry) : WatchEntry × Option Alert := (e, none)

/-! ### Marks (R154) -/

/-- A station's entry for a record marked pending and dealt with as an event says, with its alert raised; a DETACHED
station is not touched (R154, R156). -/
def Station.touch (r : Nat) (f : WatchEntry → WatchEntry × Option Alert) (st : Station) : Station :=
  if st.presence = .detached then st
  else
    match st.watch.find? (fun e => decide (e.record = r)) with
    | none => st
    | some e =>
      { st with
        watch := st.watch.map fun x => if x.record = r then { (f x).1 with pending := true } else x
        alerts :=
          match (f e).2 with
          | none => st.alerts
          | some a => raiseAlert st.alerts a }

/-- The line being sent was made from an entry that is marked again meanwhile (R154). -/
def markedAgain (r : Nat) (o : Output) : Output :=
  match o with
  | .line l =>
    match l.source with
    | .entry record _ => if record = r then .line { l with source := .entry record true } else o
    | _ => o
  | _ => o

/-- Every watch entry naming a record, at every ATTACHED or ABSENT station, marked and dealt with. -/
def Desk.touch (d : Desk) (r : Nat) (f : WatchEntry → WatchEntry × Option Alert) : Desk :=
  { d with
    stations := d.stations.map (Station.touch r f)
    transaction := d.transaction.map fun t => { t with output := markedAgain r t.output } }

/-- Every pending mark at every station cleared (R53). -/
def Desk.clearMarks (d : Desk) : Desk :=
  { d with stations := d.stations.map fun st => { st with watch := st.watch.map fun e => { e with pending := false } } }

/-! ### Entries leaving a list (R17, R143) -/

/-- A page without the lines that would be made from entries for which `gone` holds (R17). A WATCH CHANGES page forgets that
such an entry has had a line, and still counts the line (R155). -/
def Page.withoutEntries (gone : Nat → Bool) : Page → Page
  | .watch left => .watch (left.filter fun r => !gone r)
  | .changes sent lines => .changes (sent.filter fun r => !gone r) lines
  | other => other

/-- A page without the lines of a freed record: its entry lines, and what is left of a QUOTE or RECENT page for it (R17). -/
def Page.withoutRecord (r : Nat) (page : Page) : Page :=
  match page with
  | .quote record left => if record = r then .quote record [] else .quote record left
  | .recent record left => if record = r then .recent record [] else .recent record left
  | other => other.withoutEntries fun x => decide (x = r)

/-- A station without its entry for a record, the entry's mark and its alert (R17, R143). -/
def Station.dropEntry (r : Nat) (st : Station) : Station :=
  { st with watch := st.watch.filter fun e => e.record != r
            alerts := st.alerts.filter fun a => a.record != r }

/-- The pages of one station, on the line and in the slot, changed. -/
def Desk.mapPages (d : Desk) (ofStation : Nat → Bool) (f : Page → Page) : Desk :=
  { d with
    transaction := d.transaction.map fun t => if ofStation t.station then { t with page := t.page.map f } else t
    slot := d.slot.map fun p => if ofStation p.station then { p with page := f p.page } else p }

/-- A freed record leaves every list, and every page loses its lines (R17). -/
def Desk.freeRecord (d : Desk) (r : Nat) : Desk :=
  { d with stations := d.stations.map (Station.dropEntry r) }.mapPages (fun _ => true) (Page.withoutRecord r)

/-- A station's entry for a record leaves its list, and the station's pages lose its line (R150). -/
def Desk.dropWatch (d : Desk) (n r : Nat) : Desk :=
  (d.modifyStation n (Station.dropEntry r)).mapPages (fun m => decide (m = n)) (Page.withoutEntries fun x => decide (x = r))

/-- A LOAD WATCH entry as stored, keeping the pending mark of the old list's entry for the same record (R151). -/
def loadedEntry (old : List WatchEntry) (w : WatchArgs) : WatchEntry where
  record := w.record
  above := w.above
  below := w.below
  move := w.move
  pending := old.any fun e => decide (e.record = w.record) && e.pending

/-- A station with its list replaced: marks and alerts of records in both lists kept, the others removed (R151). -/
def Station.loadWatch (entries : List WatchArgs) (st : Station) : Station :=
  { st with watch := entries.map (loadedEntry st.watch)
            alerts := st.alerts.filter fun a => entries.any fun w => decide (w.record = a.record) }

/-- A station's list replaced, and its pages without the lines of the entries that left (R151). -/
def Desk.loadWatch (d : Desk) (n : Nat) (entries : List WatchArgs) : Desk :=
  (d.modifyStation n (Station.loadWatch entries)).mapPages (fun m => decide (m = n))
    (Page.withoutEntries fun x => !(entries.any fun w => decide (w.record = x)))

/-! ### Commands -/

/-- LOAD WATCH (R151). -/
def dealLoadWatch (station : Nat) (entries : List WatchArgs) (route : Route) (s : State) : State :=
  if watchArgsSound station entries = false then s.refuse route 10 .badArgument
  else if entries.any (fun w => (s.record? w.record).isNone) then s.refuse route 10 .notFound
  else
    { s with desk := s.desk.loadWatch station entries }.answer route 10 .done (.watchLoaded station entries.length)

/-- CLEAR WATCH (R151). -/
def dealClearWatch (station : Nat) (route : Route) (s : State) : State :=
  if 15 < station then s.refuse route 11 .badArgument
  else { s with desk := s.desk.loadWatch station [] }.answer route 11 .done (.station station)

/-! ### Modes (R152) -/

/-- A station's mode and interval set, with the effect on its stream timer and stream-due flag (Table 7-4). -/
def Station.setMode (now : Reading) (mode : StationMode) (interval : Nat) (st : Station) : Station :=
  let seconds := clamp 1 60 interval
  let next := some (after now (seconds * 1000))
  match mode with
  | .stream =>
    if st.mode = .stream then
      { st with interval := seconds, streamAt := if st.streamAt.isSome then next else none }
    else if st.presence = .detached then { st with mode := .stream, interval := seconds }
    else { st with mode := .stream, interval := seconds, streamAt := next, streamDue := true }
  | other =>
    if st.mode = .stream then { st with mode := other, interval := seconds, streamAt := none, streamDue := false }
    else { st with mode := other, interval := seconds }

/-- SET STATION (R152). -/
def dealSetStation (station mode interval : Nat) (route : Route) (s : State) : State :=
  match modeOf mode with
  | none => s.refuse route 12 .badArgument
  | some m =>
    if 15 < station then s.refuse route 12 .badArgument
    else
      { s with desk := s.desk.modifyStation station (Station.setMode s.clock m interval) }.answer route 12 .done
        (.modeStored m (clamp 1 60 interval))

/-- STREAM_TIMER_EXPIRY: a station's stream timer expires; the flag is set and the next expiry counted from the clock
reading (R153). -/
def execStreamTimerExpiry (station : Nat) (s : State) : Host.Outcome State Fault Refusal :=
  match s.desk.stations[station]? with
  | none => .next s
  | some st =>
    if due s.clock st.streamAt then
      .next { s with desk := s.desk.modifyStation station fun x =>
        { x with streamDue := true, streamAt := some (after s.clock (x.interval * 1000)) } }
    else .next s

end Sys2Proof.Machine
end

