-- ==== Sys2Proof/Machine/Reports.lean ====
section
/-! DEFINITION. The five queries: their checks and the parts of Table 10-4, rendered from the state as a reply is placed
(R20, R49, R73, R95, R115, R140, R160, R169, R172, R175, R181, R188, R189). -/

namespace Sys2Proof.Machine

/-! ### QUERY STATUS -/

/-- The operation state's name. -/
def DirOperation.name : DirOperation → OperationName
  | .idle => .idle
  | .draining _ _ => .draining
  | .working _ _ => .working

/-- Part 0: the unit, the directory, session, floor time and walk state. -/
def State.unitReport (s : State) : UnitReport where
  address := s.manager.address
  source := s.manager.source
  state := s.manager.state
  cause := s.manager.cause
  lamp := s.lamp
  primaries := countEntries s.directory.entries .primary
  aliases := countEntries s.directory.entries .aliased
  operation := s.directory.operation.name
  session := s.store.session
  floor := s.store.floor
  walk := s.store.walk

/-- The ribbon state's name. -/
def Ribbon.name : Ribbon → RibbonName
  | .idle => .idle
  | .notice _ _ => .notice
  | .item _ _ => .item

/-- The count of the queued OMITTED notice, if one is queued (R73). -/
def omittedQueued : List Item → Option Nat
  | [] => none
  | i :: rest =>
    match i.kind with
    | .omitted count => some count
    | _ => omittedQueued rest

/-- One tape's figures in part 1 (R73). -/
def Tape.report (t : Tape) : TapeReport where
  ribbon := t.ribbon.name
  level := t.level
  queued := t.queue.length
  omittedQueued := omittedQueued t.queue
  omitted := t.omitted
  shown := t.shown.length

/-- Part 2 (R115). -/
def Board.report (b : Board) : BoardReport where
  pause := b.pause
  panels := b.panels
  dirty := b.dirty.length
  block := b.block.map fun blk => (blk.panel, blk.cells.length)

/-- Part 3 (R140). -/
def Desk.report (d : Desk) : LineReport where
  line := d.line
  transaction := d.transaction.map fun t => (t.station, t.kind)
  slot := d.slot.map fun p => (p.station, p.causing)
  stuckSet := d.stuckAt.isSome
  alternation := d.alternation
  lastAlert := d.lastAlert
  lastRoutine := d.lastRoutine

/-- Part 4 (R169, R172, R175). -/
def State.feedReport (s : State) : FeedReport where
  lock := s.feed.lock
  feed := s.feed.feed
  lossSet := s.feed.lossAt.isSome
  forward := s.feed.forwardCount
  reserved := s.feed.reserved
  filled := s.feed.filledPlaces
  errorLimit := s.feed.errorLimit
  intake := s.intake.queue.length
  marked := (s.intake.queue.filter IntakeMessage.marked).length
  expectation := s.intake.expectation

/-- A part of QUERY STATUS; none beyond part 4 (R181). -/
def State.statusPart (s : State) : Nat → Option ReplyBody
  | 0 => some (.statusUnit s.unitReport)
  | 1 => some (.statusTapes s.tapeA.report s.tapeB.report)
  | 2 => some (.statusBoard s.board.report)
  | 3 => some (.statusLine s.desk.report)
  | 4 => some (.statusFeed s.feedReport)
  | _ => none

/-! ### QUERY RECORD -/

/-- A part of QUERY RECORD for an occupied record; none beyond part 3 (R20, R95, R181). -/
def State.recordPart (s : State) (q : QuoteRecord) : Nat → Option ReplyBody
  | 0 => some (.recordIdentity q.code q.grid q.maskA q.maskB q.cells q.halted q.prevClose q.last q.reference q.tick q.traded)
  | 1 => some (.recordDay q.opening q.high q.low q.volume q.bid q.ask)
  | 2 => some (.recordRing q.ring)
  | 3 => some (.recordMonitor q.monitor (decide (q.code ∈ s.tapeA.shown)) (decide (q.code ∈ s.tapeB.shown)))
  | _ => none

/-! ### QUERY STATION and QUERY WATCH -/

/-- The time to the stream timer's next expiry, where it runs (R160). -/
def timeToStream (now : Reading) (streamAt : Option Reading) : Option Nat := streamAt.map fun at_ => elapsed at_ now

/-- A part of QUERY STATION; none beyond part 1. The presence reading is the one of the last scan (R140). -/
def State.stationPart (s : State) (n : Nat) (st : Station) : Nat → Option ReplyBody
  | 0 => some (.stationState st.presence (s.desk.scanPrevious.getLsbD n) st.mode st.interval st.streamDue
      (timeToStream s.clock st.streamAt) st.served st.failedRun)
  | 1 => some (.stationCounters st.counters)
  | _ => none

/-- An entry with its record's primary code (R160). -/
def State.watchReport (s : State) (e : WatchEntry) : WatchReport where
  entry := e
  code := (s.record? e.record).map QuoteRecord.code

/-- Four entries of a watch list from a place on (Table 10-4). -/
def State.entriesFrom (s : State) (st : Station) (start : Nat) : ReplyBody :=
  .watchEntries (((st.watch.drop start).take 4).map s.watchReport)

/-- Six alerts of an alert queue from a place on (Table 10-4). -/
def alertsFrom (st : Station) (start : Nat) : ReplyBody := .watchAlerts ((st.alerts.drop start).take 6)

/-- A part of QUERY WATCH; none beyond part 4 (R160). -/
def State.watchPart (s : State) (st : Station) : Nat → Option ReplyBody
  | 0 => some (s.entriesFrom st 0)
  | 1 => some (s.entriesFrom st 4)
  | 2 => some (s.entriesFrom st 8)
  | 3 => some (alertsFrom st 0)
  | 4 => some (alertsFrom st 6)
  | _ => none

/-! ### The queries as commands (R181) -/

/-- A query answered with the part asked for, or refused when there is no such part. A broadcast query does nothing. -/
def State.answerPart (s : State) (route : Route) (echo : Nat) (part : Option ReplyBody) : State :=
  match part with
  | none => s.refuse route echo .badArgument
  | some body => s.answer route echo .done body

/-- QUERY STATUS (R181). -/
def dealQueryStatus (part : Nat) (route : Route) (s : State) : State := s.answerPart route 17 (s.statusPart part)

/-- QUERY RECORD (R19, R181). DESIGN CHOICE: a part beyond the last is refused with BAD ARGUMENT before an unoccupied record with
NOT FOUND, since R181 gives the two refusals no order (assumption 46). -/
def dealQueryRecord (part record : Nat) (route : Route) (s : State) : State :=
  if 3 < part ∨ 512 ≤ record then s.refuse route 18 .badArgument
  else
    match s.record? record with
    | none => s.refuse route 18 .notFound
    | some q => s.answerPart route 18 (s.recordPart q part)

/-- QUERY STATION (R181). -/
def dealQueryStation (part station : Nat) (route : Route) (s : State) : State :=
  match s.desk.stations[station]? with
  | none => s.refuse route 19 .badArgument
  | some st => s.answerPart route 19 (s.stationPart station st part)

/-- QUERY WATCH (R160, R181). -/
def dealQueryWatch (part station : Nat) (route : Route) (s : State) : State :=
  match s.desk.stations[station]? with
  | none => s.refuse route 20 .badArgument
  | some st => s.answerPart route 20 (s.watchPart st part)

/-- QUERY COUNTERS (R188): one part, the sixteen unit counters. -/
def dealQueryCounters (part : Nat) (route : Route) (s : State) : State :=
  s.answerPart route 21 (if part = 0 then some (.counters s.counters) else none)

end Sys2Proof.Machine
end

