-- ==== Sys2Proof/Machine/Replies.lean ====
section
/-! DEFINITION. Replies in characters: the kind, addressing, status and check of Table 10-1, and each body in the widths of R191
and Table 10-3 (R190, R192, Tables 9-1 and 10-4). The widths and the numbers that Chapter 10 gives are used where it gives
them; the numbers of the other named values, the widths of plain counts and where an absent value is a presence flag are the
model's choice (DESIGN CHOICE, assumption 41). -/

namespace Sys2Proof.Machine

/-! ### Numbers of named values -/

/-- The reply statuses (section 10.1). -/
def Status.number : Status → Nat
  | .done => 0
  | .busy => 1
  | .badArgument => 2
  | .noRoom => 3
  | .notFound => 4
  | .exists_ => 5

/-- The unit state. -/
def UnitState.number : UnitState → Nat
  | .held => 0
  | .running => 1

/-- The restart cause. -/
def RestartCause.number : RestartCause → Nat
  | .power => 0
  | .keep => 1
  | .clear => 2

/-- The address source. -/
def AddressSource.number : AddressSource → Nat
  | .straps => 0
  | .assigned => 1
  | .unassigned => 2

/-- The operation state of the directory. -/
def OperationName.number : OperationName → Nat
  | .idle => 0
  | .draining => 1
  | .working => 2

/-- The session. -/
def Session.number : Session → Nat
  | .closed => 0
  | .preOpen => 1
  | .opened => 2

/-- The ribbon state. -/
def RibbonName.number : RibbonName → Nat
  | .idle => 0
  | .notice => 1
  | .item => 2

/-- The pause state of the board. -/
def PauseState.number : PauseState → Nat
  | .running => 0
  | .pausing => 1
  | .paused => 2

/-- A panel's state. -/
def PanelState.number : PanelState → Nat
  | .inService => 0
  | .out => 1
  | .probing => 2

/-- The line states, in the order of Table 6-2. -/
def LineState.number : LineState → Nat
  | .free => 0
  | .claim => 1
  | .selecting => 2
  | .request => 3
  | .reply => 4
  | .reselecting => 5
  | .delivery => 6
  | .clearing => 7
  | .stuck => 8

/-- A transaction's kind. -/
def TransactionKind.number : TransactionKind → Nat
  | .request => 0
  | .alertDelivery => 1
  | .routineDelivery => 2
  | .resumption _ => 3

/-- The lock state. -/
def LockState.number : LockState → Nat
  | .searching => 0
  | .locked => 1

/-- The feed state. -/
def FeedState.number : FeedState → Nat
  | .normal => 0
  | .lost => 1

/-- A station's presence state. -/
def Presence.number : Presence → Nat
  | .detached => 0
  | .attached => 1
  | .absent => 2

/-- A station's mode (Table 10-3). -/
def StationMode.number : StationMode → Nat
  | .event => 0
  | .stream => 1
  | .quiet => 2

/-- A print's condition (R191). -/
def Condition.number : Condition → Nat
  | .regular => 0
  | .opened => 1
  | .sld => 2

/-- A halt reason (R191). -/
def HaltReason.number : HaltReason → Nat
  | .news => 0
  | .imbalance => 1
  | .other => 2

/-- A monitor state. -/
def MonitorState.number : MonitorState → Nat
  | .calm => 0
  | .arming => 1
  | .active => 2
  | .releasing => 3

/-- A move direction. -/
def Direction.number : Direction → Nat
  | .up => 0
  | .down => 1

/-- An alert reason, in the order of Table 7-5. -/
def AlertReason.number : AlertReason → Nat
  | .above => 0
  | .below => 1
  | .move => 2
  | .halt => 3
  | .resume => 4

/-! ### Fields -/

/-- A number of one character. -/
def one (n : Nat) : List Byte := charactersOf 1 n

/-- A number of two characters. -/
def two (n : Nat) : List Byte := charactersOf 2 n

/-- Flags of one character, the first-named in the lowest bit (R191). -/
def flags (bits : List Bool) : List Byte := charactersOf 1 (flagBits bits)

/-- A price of three characters, 0 when absent (R191). -/
def priceCharacters (price : Option Nat) : List Byte := charactersOf 3 (price.getD 0)

/-- Floor time (R191). -/
def timeCharacters (t : FloorTime) : List Byte := one t.hours ++ one t.minutes ++ one t.seconds

/-- A side of a quote, its price 0 when absent (R191). -/
def quoteSideCharacters (side : Option (Nat × Nat)) : List Byte :=
  priceCharacters (side.map Prod.fst) ++ two ((side.map Prod.snd).getD 0)

/-- Monitor settings as SET MONITOR carries them (Table 10-3). -/
def settingsCharacters (m : MonSettings) : List Byte := two m.t ++ two m.h ++ one m.n ++ one m.k

/-- A cell list as LOAD SYMBOL's two slots carry it, panel 255 in an empty one (R192). -/
def cellListCharacters (cells : List Nat) : List Byte :=
  slotCharacters (cells[0]?.map fun c => (panelOf c, c % 64)) ++ slotCharacters (cells[1]?.map fun c => (panelOf c, c % 64))

/-- One print of a ring: sequence number, price, volume and condition, 9 characters (Table 10-4). -/
def printCharacters (p : Print) : List Byte :=
  two p.sequence ++ charactersOf 3 p.price ++ charactersOf 3 p.volume ++ one p.condition.number

/-- One watch entry of a QUERY WATCH reply (Table 10-4). -/
def watchCharacters (w : WatchReport) : List Byte :=
  two w.entry.record ++ codeCharacters (w.code.getD []) ++ priceCharacters w.entry.above ++ priceCharacters w.entry.below ++
    flags [w.entry.move, w.entry.pending]

/-- One alert of a QUERY WATCH reply (Table 10-4). -/
def alertCharacters (a : Alert) : List Byte := two a.record ++ one a.reason.number ++ priceCharacters a.price

/-- The lamp's five conditions (R189). -/
def LampConditions.characters (l : LampConditions) : List Byte :=
  flags [l.held, l.feedLost, l.errorLimit, l.deskStuck, l.panelOut]

/-! ### Parts of QUERY STATUS -/

/-- Part 0. -/
def UnitReport.characters (r : UnitReport) : List Byte :=
  one r.address ++ one r.source.number ++ one r.state.number ++ one r.cause.number ++ r.lamp.characters ++
    two r.primaries ++ two r.aliases ++ one r.operation.number ++ one r.session.number ++ timeCharacters r.floor ++
    flags [r.walk.isSome] ++ two (r.walk.getD 0)

/-- One tape of part 1. A queued OMITTED notice's count is never 0, so 0 says that none is queued. -/
def TapeReport.characters (r : TapeReport) : List Byte :=
  one r.ribbon.number ++ one r.level ++ two r.queued ++ two (r.omittedQueued.getD 0) ++ two r.omitted ++ two r.shown

/-- Part 2: a block in flight by its panel and its count of cells. -/
def BoardReport.characters (r : BoardReport) : List Byte :=
  one r.pause.number ++ (r.panels.map fun p => one p.state.number ++ one p.failures).flatten ++ two r.dirty ++
    flags [r.block.isSome] ++ one ((r.block.map Prod.fst).getD 0) ++ one ((r.block.map Prod.snd).getD 0)

/-- Part 3. -/
def LineReport.characters (r : LineReport) : List Byte :=
  one r.line.number ++ flags [r.transaction.isSome, r.slot.isSome, r.stuckSet, r.alternation] ++
    one ((r.transaction.map Prod.fst).getD 0) ++ one ((r.transaction.map fun t => t.2.number).getD 0) ++
    one ((r.slot.map Prod.fst).getD 0) ++ one ((r.slot.map Prod.snd).getD 0) ++ one r.lastAlert ++ one r.lastRoutine

/-- Part 4. -/
def FeedReport.characters (r : FeedReport) : List Byte :=
  one r.lock.number ++ one r.feed.number ++ flags [r.lossSet, r.errorLimit, r.expectation.isSome] ++ two r.forward ++
    one r.reserved ++ one r.filled ++ one r.intake ++ one r.marked ++ two (r.expectation.getD 0)

/-! ### Bodies (Tables 9-1 and 10-4) -/

/-- The sixteen unit counters in the order of Table 9-4. -/
def Counters.inOrder (c : Counters) : List Nat :=
  [c.framingFaults, c.lockLosses, c.feedLosses, c.checkFailures, c.untaken, c.expiredReplies, c.malformed, c.duplicates,
    c.gaps, c.missed, c.overruns, c.heldDiscards, c.offGrid, c.omissionsA, c.omissionsB, c.boardFailures]

/-- The five station counters in the order of Table 6-1. -/
def StationCounters.inOrder (c : StationCounters) : List Nat :=
  [c.windowTimeouts, c.checkErrors, c.lost, c.phaseFaults, c.failedDeliveries]

/-- A body's characters (R192). -/
def ReplyBody.characters : ReplyBody → List Byte
  | .empty => []
  | .unitState state => one state.number
  | .restartCause cause => one cause.number
  | .codeRecord symbol record => codeCharacters symbol ++ two record
  | .code symbol => codeCharacters symbol
  | .cell panel place names => one panel ++ one place ++ two (names.getD 65535)
  | .settings m => settingsCharacters m
  | .watchLoaded n entries => one n ++ one entries
  | .station n => one n
  | .modeStored mode interval => one mode.number ++ one interval
  | .parameter ident value => one ident ++ two value
  | .tapeScope all => one 6 ++ two (if all then 1 else 0)
  | .levelParameter ident enter leave => one ident ++ two enter ++ two leave
  | .pauseState pause => one pause.number
  | .panelState state => one state.number
  | .statusUnit report => report.characters
  | .statusTapes a b => a.characters ++ b.characters
  | .statusBoard report => report.characters
  | .statusLine report => report.characters
  | .statusFeed report => report.characters
  | .recordIdentity symbol grid maskA maskB cells halted prevClose last reference tick traded =>
    codeCharacters symbol ++ one grid ++ flags [maskA, maskB] ++ cellListCharacters cells ++
      flags [halted.isSome, traded] ++ one ((halted.map HaltReason.number).getD 0) ++ priceCharacters prevClose ++
      priceCharacters (last.map Prod.fst) ++ timeCharacters ((last.map Prod.snd).getD ⟨0, 0, 0⟩) ++
      priceCharacters reference ++ one (tickNumber tick)
  | .recordDay opening high low volume bid ask =>
    priceCharacters opening ++ priceCharacters high ++ priceCharacters low ++ charactersOf 4 volume ++
      quoteSideCharacters bid ++ quoteSideCharacters ask
  | .recordRing ring => (ring.map printCharacters).flatten
  | .recordMonitor m shownA shownB =>
    settingsCharacters m.settings ++ one m.state.number ++ one m.count ++ charactersOf 4 (m.baseline.getD 0) ++
      flags [m.direction.isSome, m.hold.isSome, shownA, shownB] ++ one ((m.direction.map Direction.number).getD 0) ++
      charactersOf 4 ((m.hold.map BitVec.toNat).getD 0)
  | .stationState presence reading mode interval streamDue toStream served failedRun =>
    one presence.number ++ one mode.number ++ one interval ++ flags [reading, streamDue, served, toStream.isSome] ++
      charactersOf 4 (toStream.getD 0) ++ one failedRun
  | .stationCounters c => (c.inOrder.map two).flatten
  | .watchEntries entries => (entries.map watchCharacters).flatten
  | .watchAlerts alerts => (alerts.map alertCharacters).flatten
  | .counters c => (c.inOrder.map two).flatten

/-! ### Replies (Table 10-1) -/

/-- A reply message from kind to check: kind 65, its length, the unit address, the command echo, the status, the body and the
check (R180, R190). -/
def Reply.message (r : Reply) : List Byte :=
  wholeMessage 65 (one r.address ++ one r.echo ++ one r.status.number) r.body.characters

/-- A reply as FEED OUT sends it: its flag and its characters from kind to check (R166, R190). -/
def Reply.characters (r : Reply) : List FeedChar := queued r.message

end Sys2Proof.Machine
end

