-- ==== Sys2Proof/Machine/Tape.lean ====
section
/-! DEFINITION. One ticker tape: offers and omissions, the ribbon's starts, the level, rendering, merging and cancellation
(Chapter 4), and the offers a state makes to its tapes. -/

namespace Sys2Proof.Machine

/-! ### Texts (R84 to R86) -/

/-- Two separator spaces. -/
def separator : Text := [' ', ' ']

/-- One space and a group, or nothing where the group is left out. -/
def spaced : Text → Text
  | [] => []
  | group => ' ' :: group

/-- The volume group of a PRINT item (R84): `h` is the volume in hundreds, rounded down. -/
def volumeGroup (level threshold volume : Nat) : Text :=
  let h := volume / 100
  if h < 2 then []
  else if level ≠ 0 ∧ h < threshold then []
  else if h < 100 then decimal h ++ ['s']
  else decimal (h * 100) ++ ['S', 'H', 'S']

/-- The marker of a PRINT item (R84). -/
def markerText : Condition → Text
  | .regular => []
  | .opened => ['O', 'P', 'D']
  | .sld => ['S', 'L', 'D']

/-- The price group of a PRINT item (R84): cut at level 2 or 3 when the code has been shown in full. -/
def priceGroup (level : Nat) (shown : List Code) (code : Code) (grid price : Nat) : Text :=
  if 2 ≤ level ∧ code ∈ shown then cutPriceText grid price else priceText grid price

/-- The shown-in-full set after a PRINT item starts (R84, R85). -/
def shownAfter (level : Nat) (shown : List Code) (code : Code) : List Code :=
  if 2 ≤ level ∧ code ∉ shown ∧ shown.length < 1024 then shown ++ [code] else shown

/-- The text of an item at its start (R84, R86). -/
def itemText (level threshold : Nat) (shown : List Code) : ItemKind → Text
  | .print code price grid volume condition _ =>
    code ++ spaced (volumeGroup level threshold volume) ++ spaced (priceGroup level shown code grid price) ++
      spaced (markerText condition) ++ separator
  | .cxl code price grid => code ++ [' ', 'C', 'X', 'L', ' '] ++ priceText grid price ++ separator
  | .halted code reason => code ++ [' ', 'H', 'A', 'L', 'T', 'E', 'D', ' '] ++ reasonText reason ++ separator
  | .resumed code => code ++ [' ', 'R', 'E', 'S', 'U', 'M', 'E', 'D'] ++ separator
  | .notice text => text ++ separator
  | .sessionOpen => ['M', 'A', 'R', 'K', 'E', 'T', ' ', 'O', 'P', 'E', 'N'] ++ separator
  | .sessionClosed => ['M', 'A', 'R', 'K', 'E', 'T', ' ', 'C', 'L', 'O', 'S', 'E', 'D'] ++ separator
  | .feedInterrupted =>
    ['F', 'E', 'E', 'D', ' ', 'I', 'N', 'T', 'E', 'R', 'R', 'U', 'P', 'T', 'E', 'D'] ++ separator
  | .feedRestored => ['F', 'E', 'E', 'D', ' ', 'R', 'E', 'S', 'T', 'O', 'R', 'E', 'D'] ++ separator
  | .omitted count => ['O', 'M', 'I', 'T', 'T', 'E', 'D', ' '] ++ decimal count ++ separator

/-- The shown-in-full set after an item of any kind starts. -/
def shownAfterItem (level : Nat) (shown : List Code) : ItemKind → List Code
  | .print code _ _ _ _ _ => shownAfter level shown code
  | _ => shown

/-- The text of a level notice (Table 4-4, R86). -/
def levelText : Nat → Text
  | 0 => ['T', 'A', 'P', 'E', ' ', 'N', 'O', 'R', 'M', 'A', 'L'] ++ separator
  | 1 => ['V', 'O', 'L', 'U', 'M', 'E', ' ', 'O', 'M', 'I', 'T', 'T', 'E', 'D'] ++ separator
  | 2 => ['D', 'I', 'G', 'I', 'T', 'S', ' ', 'D', 'E', 'L', 'E', 'T', 'E', 'D'] ++ separator
  | _ => ['R', 'E', 'P', 'E', 'A', 'T', 'S', ' ', 'M', 'E', 'R', 'G', 'E', 'D'] ++ separator

/-- The ribbon time of a text in milliseconds: its length × 1,000 divided by the rate, rounded up (R81). -/
def ribbonTime (length rate : Nat) : Nat := (length * 1000 + rate - 1) / rate

/-! ### Lateness and level (R82, R83) -/

/-- The lateness of an item in whole seconds, held at 65,535 (R82). -/
def lateness (now stamp : Reading) : Nat := min 65535 (elapsed now stamp / 1000)

/-- The highest level whose enter threshold the lateness has reached, or 0 (R82). -/
def targetLevel (p : Params) (late : Nat) : Nat :=
  if p.enter3 ≤ late then 3 else if p.enter2 ≤ late then 2 else if p.enter1 ≤ late then 1 else 0

/-- The leave threshold of a level. -/
def leaveThreshold (p : Params) : Nat → Nat
  | 1 => p.leave1
  | 2 => p.leave2
  | _ => p.leave3

/-- The level decided at an evaluation (R82). -/
def nextLevel (p : Params) (level late : Nat) : Nat :=
  if level < targetLevel p late then targetLevel p late
  else if 1 ≤ level ∧ late < leaveThreshold p level then level - 1
  else level

/-! ### The ribbon (R78, R80, R81, R83) -/

/-- An item has left the queue: a nonzero omitted count becomes an OMITTED notice at the tail (R78). -/
def Tape.departed (t : Tape) (now : Reading) : Tape :=
  if t.omitted = 0 then t
  else { t with queue := t.queue ++ [{ stamp := now, kind := .omitted t.omitted }], omitted := 0 }

/-- The head item starts: it leaves the queue and its text is on the ribbon (R80, R81). With an empty queue the ribbon
goes IDLE. -/
def Tape.startHead (t : Tape) (p : Params) (rate : Nat) (now : Reading) : Tape :=
  match t.queue with
  | [] => { t with ribbon := .idle }
  | head :: rest =>
    let text := itemText t.level p.blockThreshold t.shown head.kind
    Tape.departed
      { t with queue := rest
               ribbon := .item text (after now (ribbonTime text.length rate))
               shown := shownAfterItem t.level t.shown head.kind } now

/-- A level notice is placed in the notice slot and starts (R83). -/
def Tape.startNotice (t : Tape) (level rate : Nat) (now : Reading) : Tape :=
  { t with level := level
           slot := some { level := level, stamp := now }
           shown := if 2 ≤ level ∧ t.level ≤ 1 then [] else t.shown
           ribbon := .notice (levelText level) (after now (ribbonTime (levelText level).length rate)) }

/-- A start event with an item waiting: the level is evaluated, then its notice or the head item starts (R80). -/
def Tape.startEvent (t : Tape) (p : Params) (rate : Nat) (now : Reading) : Tape :=
  match t.queue with
  | [] => { t with ribbon := .idle }
  | head :: _ =>
    let level := nextLevel p t.level (lateness now head.stamp)
    if level = t.level then t.startHead p rate now else t.startNotice level rate now

/-- The text on the ribbon completes (R80). -/
def Tape.completed (t : Tape) (p : Params) (rate : Nat) (now : Reading) : Tape :=
  match t.ribbon with
  | .idle => t
  | .notice _ _ => { t with slot := none }.startHead p rate now
  | .item _ _ => t.startEvent p rate now

/-- The completion time of the text on the ribbon, if there is one. -/
def Tape.doneAt (t : Tape) : Option Reading :=
  match t.ribbon with
  | .idle => none
  | .notice _ at_ => some at_
  | .item _ at_ => some at_

/-! ### Merging (R87) -/

/-- An offered REGULAR print merged into a queued item, when R87's three conditions hold. -/
def mergeInto (offered queued : ItemKind) : Option ItemKind :=
  match offered, queued with
  | .print _ price _ volume condition sequences, .print code' price' grid' volume' condition' sequences' =>
    if price' = price ∧ condition = .regular ∧ condition' = .regular ∧ sequences'.length < 8 then
      some (.print code' price' grid' (min 16777215 (volume' + volume)) .regular (sequences' ++ sequences))
    else none
  | _, _ => none

/-- The code of a PRINT item. -/
def printCode : ItemKind → Option Code
  | .print code _ _ _ _ _ => some code
  | _ => none

/-- The merge test on the newest queued PRINT item of the code (R87): none when the queue holds no PRINT item of the
code, otherwise whether it merged and the queue after. -/
def mergeNewest (offered : ItemKind) (code : Code) : List Item → Option (Option (List Item))
  | [] => none
  | i :: rest =>
    match mergeNewest offered code rest with
    | some outcome => some (outcome.map (i :: ·))
    | none =>
      if printCode i.kind = some code then
        some ((mergeInto offered i.kind).map fun merged => { i with kind := merged } :: rest)
      else none

/-- The queue after a merge of an offered item at level 3, or none when it does not merge. -/
def Tape.merge (t : Tape) (offered : ItemKind) : Option (List Item) :=
  match printCode offered with
  | none => none
  | some code => if t.level = 3 then (mergeNewest offered code t.queue).join else none

/-! ### Offers and omissions (R76, R77) -/

/-- One added to the count of the queued OMITTED notice, or none when the queue holds no such notice (R77). -/
def countInNotice : List Item → Option (List Item)
  | [] => none
  | i :: rest =>
    match i.kind with
    | .omitted count => some ({ i with kind := .omitted (min 999 (count + 1)) } :: rest)
    | _ => (countInNotice rest).map (i :: ·)

/-- An offered item is omitted: counted in the queued OMITTED notice, or in the omitted count (R77). -/
def Tape.omit (t : Tape) : Tape :=
  match countInNotice t.queue with
  | some queue => { t with queue := queue }
  | none => { t with omitted := min 999 (t.omitted + 1) }

/-- A tape takes an offer (R76); the flag says the item was omitted. -/
def Tape.offer (t : Tape) (p : Params) (rate : Nat) (now : Reading) (item : Item) : Tape × Bool :=
  match t.merge item.kind with
  | some queue => ({ t with queue := queue }, false)
  | none =>
    if t.ribbon = .idle then ({ t with queue := t.queue ++ [item] }.startEvent p rate now, false)
    else if t.queue.length < 127 then ({ t with queue := t.queue ++ [item] }, false)
    else (t.omit, true)

/-! ### Cancellation (R88) -/

/-- A queued item after a cancel hand-off: none when it does not qualify; otherwise the item shrunk, or nothing when its
sequence list is empty (R88). R88 removes q from the list and does not say whether one or every copy goes where a merge
after the wrap of the sequence numbers has put it there twice; the model removes every copy, and subtracts the hand-off's
volume once (DESIGN CHOICE, assumption 39). -/
def shrinkItem (code : Code) (sequence volume : Nat) (i : Item) : Option (Option Item) :=
  match i.kind with
  | .print c price grid v condition sequences =>
    if c = code ∧ sequence ∈ sequences then
      if (sequences.filter fun q => q != sequence) = [] then some none
      else some (some { i with kind := .print c price grid (v - volume) condition (sequences.filter fun q => q != sequence) })
    else none
  | _ => none

/-- The newest qualifying item shrunk or removed: none when no item qualifies, otherwise whether an item left the queue
and the queue after (R88). -/
def shrinkNewest (code : Code) (sequence volume : Nat) : List Item → Option (Bool × List Item)
  | [] => none
  | i :: rest =>
    match shrinkNewest code sequence volume rest with
    | some (left, queue) => some (left, i :: queue)
    | none =>
      match shrinkItem code sequence volume i with
      | none => none
      | some none => some (true, rest)
      | some (some shrunk) => some (false, shrunk :: rest)

/-! ### Offers from the state -/

/-- An item offered to one tape, an omission counted in that tape's unit counter (R76, R77). -/
def State.offerTo (s : State) (id : TapeId) (kind : ItemKind) : State :=
  let outcome := (s.tape id).offer s.params (s.params.rate id) s.clock { stamp := s.clock, kind := kind }
  let s' := s.setTape id outcome.1
  if outcome.2 then
    match id with
    | .a => { s' with counters := { s'.counters with omissionsA := bump s'.counters.omissionsA 1 } }
    | .b => { s' with counters := { s'.counters with omissionsB := bump s'.counters.omissionsB 1 } }
  else s'

/-- An item offered to the tapes named, tape A first. -/
def State.offer (s : State) (toA toB : Bool) (kind : ItemKind) : State :=
  let s1 := if toA then s.offerTo .a kind else s
  if toB then s1.offerTo .b kind else s1

/-- A cancel hand-off to one tape (R88): the newest qualifying queued item shrinks or leaves, or a CXL is offered. -/
def State.cancelOn (s : State) (id : TapeId) (code : Code) (sequence price grid volume : Nat) : State :=
  match shrinkNewest code sequence volume (s.tape id).queue with
  | some (true, queue) => s.setTape id (Tape.departed { s.tape id with queue := queue } s.clock)
  | some (false, queue) => s.setTape id { s.tape id with queue := queue }
  | none => s.offerTo id (.cxl code price grid)

/-- A cancel hand-off to the tapes named, tape A first (R44). -/
def State.cancel (s : State) (toA toB : Bool) (code : Code) (sequence price grid volume : Nat) : State :=
  let s1 := if toA then s.cancelOn .a code sequence price grid volume else s
  if toB then s1.cancelOn .b code sequence price grid volume else s1

/-! ### The command -/

/-- RIBBON_COMPLETION: the unit clock has reached the completion time of the text on a ribbon (R80, R81). -/
def execRibbonCompletion (id : TapeId) (s : State) : Host.Outcome State Fault Refusal :=
  if due s.clock (s.tape id).doneAt then
    .next (s.setTape id ((s.tape id).completed s.params (s.params.rate id) s.clock))
  else .next s

end Sys2Proof.Machine
end

