-- ==== Sys2Proof/Machine/Feed.lean ====
section
/-! DEFINITION. The repeater's line: what FEED OUT sends and what times it, characters and framing on FEED IN, lock and its
loss, the feed declared lost and restored, and the expiry of replies (Chapter 8, R190). What a whole message does stands in
Loop.lean. -/

namespace Sys2Proof.Machine

/-! ### The forward queue (R165) -/

/-- The forward queue has a place for `joining` more characters, which none need (R165). -/
def Repeater.hasRoom (f : Repeater) (joining : Nat) : Bool := decide (joining = 0 ∨ f.forwardCount + joining ≤ 512)

/-- A whole message joins the tail of the forward queue (R165). -/
def State.forwardMessage (s : State) (bytes : List Byte) : State :=
  { s with feed := { s.feed with forward := s.feed.forward ++ [queued bytes] } }

/-! ### FEED OUT, character by character (R166, R169) -/

/-- What FEED OUT has not yet sent of the idle flag, the message or the reply that it is sending (R166). -/
def Repeater.unsent (f : Repeater) : List FeedChar :=
  match f.out with
  | .idleFlag unsent => unsent
  | .message => f.forward.headD []
  | .reply _ unsent _ => unsent

/-- The forward queue when what FEED OUT is sending is over: a message has left it (R166). -/
def Repeater.afterSending (f : Repeater) : List (List FeedChar) :=
  match f.out with
  | .message => f.forward.drop 1
  | _ => f.forward

/-- A whole message of the forward queue is sent next, or an idle flag where there is none (R166). -/
def Repeater.startMessage (f : Repeater) : Repeater :=
  { f with out := if f.forward = [] then .idleFlag [.flag] else .message }

/-- The next thing sent, the first of R166's three that applies. -/
def Repeater.startNext (f : Repeater) : Repeater :=
  match f.filled with
  | first :: rest =>
    if f.forwardCount ≤ 256 then { f with out := .reply first.reply first.reply.characters true, filled := rest }
    else f.startMessage
  | [] => f.startMessage

/-- FEED OUT is free when all of what it was sending has gone out: that sending ends, a reply's place with it, and the next
begins (R166, R169). Until then nothing happens here. -/
def Repeater.whenFree (f : Repeater) : Repeater :=
  if f.unsent = [] then Repeater.startNext { f with forward := f.afterSending } else f

/-- The first message of the forward queue with some of its characters gone out (R166). -/
def moveHead (count : Nat) : List (List FeedChar) → List (List FeedChar)
  | [] => []
  | head :: rest => head.drop count :: rest

/-- FEED OUT sends one character: of what it is sending, or of what comes next if that is over (R166). -/
def Repeater.sendCharacter (f : Repeater) : Repeater :=
  let sending := f.whenFree
  match sending.out with
  | .idleFlag unsent => { sending with out := .idleFlag (unsent.drop 1) }
  | .message => { sending with forward := moveHead 1 sending.forward }
  | .reply reply unsent place => { sending with out := .reply reply (unsent.drop 1) place }

/-- FEED OUT sends a number of characters one after another (R166). -/
def Repeater.sendCharacters (f : Repeater) : Nat → Repeater
  | 0 => f
  | count + 1 => f.sendCharacter.sendCharacters count

/-- FEED_OUT_FREE: FEED OUT has finished sending, and the next thing starts (R166). -/
def execFeedOutFree (s : State) : Host.Outcome State Fault Refusal := .next { s with feed := s.feed.whenFree }

/-- FEED_IN_QUIET: one character time with nothing on FEED IN; FEED OUT is timed by the crystal from then on (R166). -/
def execFeedInQuiet (s : State) : Host.Outcome State Fault Refusal :=
  .next { s with feed := { s.feed with timing := .crystal } }

/-! ### What passes with a millisecond (0.6.4, R166, R190) -/

/-- What the crystal sends in one millisecond, in fifty-fifths of a character: 57,600 bits per second at eleven bits a character
are 288/55 characters a millisecond (section 10.1). -/
def crystalStep : Nat := 288

/-- A millisecond of FEED OUT timed by the crystal: the characters whose time it completes go out (R166). Where arrivals time
FEED OUT, a millisecond sends nothing. -/
def Repeater.crystalMillisecond (f : Repeater) : Repeater :=
  match f.timing with
  | .crystal =>
    let passed := f.crystalShare + crystalStep
    { f.sendCharacters (passed / 55) with crystalShare := passed % 55 }
  | .arrivals => f

/-- A millisecond in which no character came is longer than a character time, so FEED IN has gone quiet in it (R166, section
10.1; assumption 31). -/
def Repeater.quietThrough (f : Repeater) (now : Reading) : Repeater :=
  if f.lastArrival = now then f else { f with timing := .crystal }

/-- A flag held at the receiver is dropped when 250 ms have passed since the last character (R190). -/
def Repeater.flagDropped (f : Repeater) (now : Reading) : Repeater :=
  { f with heldFlag := f.heldFlag && decide (elapsed now f.lastArrival < 250) }

/-- One millisecond passes with no command waiting: the unit clock counts it, the crystal times FEED OUT through it, and a
flag held for 250 ms is dropped (0.6.4, R166, R190; assumption 2). -/
def passMillisecond (s : State) : State :=
  { s with
    clock := s.clock + 1#32
    feed := (s.feed.quietThrough s.clock).crystalMillisecond.flagDropped (s.clock + 1#32) }

/-! ### What an arriving character is (R162, R190) -/

/-- The classes of an arrival: it joins a message or is held, it is a framing fault, or it completes a message. -/
inductive ArrivalClass where
  | joins
  | framingFault
  | completes
  deriving DecidableEq, Repr

/-- A flag is held at the receiver: 250 ms without a character drop it (R190). -/
def State.flagHeld (s : State) : Bool := s.feed.heldFlag && decide (elapsed s.clock s.feed.lastArrival < 250)

/-- The data values of characters, flags left out. -/
def dataOf : List FeedChar → List Byte
  | [] => []
  | .flag :: rest => dataOf rest
  | .data b :: rest => b :: dataOf rest

/-- The class of a data character, by the characters from kind on of the message in progress (R162, R190). -/
def classOfData (held : Bool) (arriving : List FeedChar) (value : Byte) : ArrivalClass :=
  match arriving with
  | [] => if held then .joins else .framingFault
  | _ =>
    match dataOf arriving with
    | [] => .joins
    | [_] => if value.toNat < 4 ∨ 64 < value.toNat then .framingFault else .joins
    | _ :: length :: more => if more.length + 3 = length.toNat then .completes else .joins

/-- The class of an arrival in a state. -/
def State.classOf (s : State) (arrival : Arrival) : ArrivalClass :=
  match arrival with
  | .unreadable => .framingFault
  | .flag => if s.feed.arriving = [] then .joins else .framingFault
  | .data value => classOfData s.flagHeld s.feed.arriving value

/-- How many characters an arrival adds to the forward queue: a flag none until it begins a message, the first data
character two, the flag with it (R190). -/
def State.joining (s : State) (arrival : Arrival) : Nat :=
  match arrival with
  | .data _ => if s.feed.arriving = [] then 2 else 1
  | _ => 0

/-- An arrival times one character on FEED OUT, whatever is being sent, and restarts the silence measure (R163, R166). -/
def Repeater.arrivalNoted (f : Repeater) (now : Reading) : Repeater :=
  { f.sendCharacter with lastArrival := now, timing := .arrivals, crystalShare := 0 }

/-- An arrival noted in the state. -/
def State.noteArrival (s : State) : State := { s with feed := s.feed.arrivalNoted s.clock }

/-- A character joins: a flag is held, the held one dropped; a data character begins a message with the held flag or joins
the one in progress (R165, R190). -/
def Repeater.join (f : Repeater) (arrival : Arrival) : Repeater :=
  match arrival with
  | .flag => { f with heldFlag := true }
  | .data value =>
    match f.arriving with
    | [] => { f with heldFlag := false, arriving := [.flag, .data value] }
    | started => { f with arriving := started ++ [.data value] }
  | .unreadable => f

/-! ### Lock (R163) -/

/-- Lock is lost: SEARCHING, good run 0, the partial message removed, the loss counted, and the loss deadline set when the
feed is NORMAL and it is not set (R163). -/
def State.loseLock (s : State) : State :=
  { s with
    feed := { s.feed with
      lock := .searching
      goodRun := 0
      arriving := []
      lossAt :=
        match s.feed.lossAt with
        | some at_ => some at_
        | none => if s.feed.feed = .normal then some (after s.clock (s.params.feedLossHold * 100)) else none }
    counters := { s.counters with lockLosses := bump s.counters.lockLosses 1 } }

/-- A framing fault counted, the partial message removed, and the runs of R163 dealt with (R162, R163). -/
def State.countFramingFault (s : State) : State :=
  let s1 := { s with
    feed := { s.feed with arriving := [] }
    counters := { s.counters with framingFaults := bump s.counters.framingFaults 1 } }
  match s.feed.lock with
  | .searching => { s1 with feed := { s1.feed with goodRun := 0 } }
  | .locked =>
    let s2 := { s1 with feed := { s1.feed with faultRun := s1.feed.faultRun + 1 } }
    if 3 ≤ s2.feed.faultRun then s2.loseLock else s2

/-- What is held at the receiver after a framing fault: the flag that cut a message short; nothing new after a data
character; after an unreadable character what was held, if Config says so (R162, R190, assumption 11). -/
def heldAfterFault (held : Bool) (arrival : Arrival) : Bool :=
  match arrival with
  | .flag => true
  | .data _ => false
  | .unreadable => held && Config.flagOutlivesBadCharacter

/-! ### The commands of the line -/

/-- FEED_CHARACTER_RECEIVED: a character that neither completes a message nor is a framing fault (R165, R190). -/
def execFeedCharacterReceived (arrival : Arrival) (s : State) : Host.Outcome State Fault Refusal :=
  if s.classOf arrival = .joins then
    if s.feed.hasRoom (s.joining arrival) then
      .next { s.noteArrival with feed := s.noteArrival.feed.join arrival }
    else .fault .forwardQueueFull
  else .next s

/-- FRAMING_FAULT: a character that cuts a message short, gives a bad length or cannot be taken (R162, R163). -/
def execFramingFault (arrival : Arrival) (s : State) : Host.Outcome State Fault Refusal :=
  if s.classOf arrival = .framingFault then
    let s1 := s.noteArrival.countFramingFault
    .next { s1 with feed := { s1.feed with heldFlag := heldAfterFault s.flagHeld arrival } }
  else .next s

/-- LOSS_OF_LOCK_ON_SILENCE: 250 ms with no character while LOCKED (R163). -/
def execLossOfLockOnSilence (s : State) : Host.Outcome State Fault Refusal :=
  if s.feed.lock = .locked ∧ 250 ≤ elapsed s.clock s.feed.lastArrival then
    .next (State.loseLock { s with feed := { s.feed with heldFlag := false } })
  else .next s

/-- FEED LOST declared (R164): the deadline cleared, the feed LOST, and the three neighbours told. -/
def State.declareLost (s : State) : State :=
  let s1 := { s with
    feed := { s.feed with lossAt := none, feed := .lost }
    counters := { s.counters with feedLosses := bump s.counters.feedLosses 1 } }
  s1.markAssigned.offer true true .feedInterrupted

/-- FEED_LOST: the unit clock has reached the loss deadline while SEARCHING (R164). -/
def execFeedLost (s : State) : Host.Outcome State Fault Refusal :=
  if due s.clock s.feed.lossAt = true ∧ s.feed.lock = .searching then .next s.declareLost else .next s

/-- FEED RESTORED declared (R164): the feed NORMAL, the neighbours told, and the expectation UNSYNCHRONISED. -/
def State.declareRestored (s : State) : State :=
  let s1 := { s with
    feed := { s.feed with feed := .normal }
    intake := { s.intake with expectation := none } }
  s1.markAssigned.offer true true .feedRestored

/-- The lock state becomes LOCKED: a loss deadline cancelled, FEED RESTORED declared when the feed was LOST (R163, R164). -/
def State.gainLock (s : State) : State :=
  let s1 := { s with feed := { s.feed with lock := .locked, goodRun := 2, faultRun := 0, lossAt := none } }
  if s.feed.feed = .lost then s1.declareRestored else s1

/-! ### The expiry of replies (R170) -/

/-- REPLY_EXPIRY: a filled reply whose hold has passed is discarded, its place freed and the expiry counted (R170). -/
def execReplyExpiry (position : Nat) (s : State) : Host.Outcome State Fault Refusal :=
  match s.feed.filled[position]? with
  | none => .next s
  | some held =>
    if reached s.clock held.expiresAt then
      .next { s with
        feed := { s.feed with filled := s.feed.filled.eraseIdx position }
        counters := { s.counters with expiredReplies := bump s.counters.expiredReplies 1 } }
    else .next s

end Sys2Proof.Machine
end

