-- ==== Sys2Proof/Machine/Pages.lean ====
section
/-! DEFINITION. What desk pages say: headers, lines, the fixed sets and the next line of a page (Chapter 7, section
10.4). -/

namespace Sys2Proof.Machine

/-! ### Texts -/

/-- A page's name, or a status page's request kind (R145). -/
def requestName : RequestKind → Text
  | .quote => ['Q', 'U', 'O', 'T', 'E']
  | .recent => ['R', 'E', 'C', 'E', 'N', 'T']
  | .watchPage => ['W', 'A', 'T', 'C', 'H', ' ', 'P', 'A', 'G', 'E']
  | .watchAdd => ['W', 'A', 'T', 'C', 'H', ' ', 'A', 'D', 'D']
  | .watchDrop => ['W', 'A', 'T', 'C', 'H', ' ', 'D', 'R', 'O', 'P']
  | .setMode => ['S', 'E', 'T', ' ', 'M', 'O', 'D', 'E']

/-- A desk status's name (Table 7-2). -/
def deskStatusText : DeskStatus → Text
  | .done => ['D', 'O', 'N', 'E']
  | .notReady => ['N', 'O', 'T', ' ', 'R', 'E', 'A', 'D', 'Y']
  | .badRequest => ['B', 'A', 'D', ' ', 'R', 'E', 'Q', 'U', 'E', 'S', 'T']
  | .unknownSymbol => ['U', 'N', 'K', 'N', 'O', 'W', 'N', ' ', 'S', 'Y', 'M', 'B', 'O', 'L']
  | .listFull => ['L', 'I', 'S', 'T', ' ', 'F', 'U', 'L', 'L']
  | .notOnList => ['N', 'O', 'T', ' ', 'O', 'N', ' ', 'L', 'I', 'S', 'T']
  | .checkError => ['C', 'H', 'E', 'C', 'K', ' ', 'E', 'R', 'R', 'O', 'R']

/-- A station mode's name. -/
def modeText : StationMode → Text
  | .event => ['E', 'V', 'E', 'N', 'T']
  | .stream => ['S', 'T', 'R', 'E', 'A', 'M']
  | .quiet => ['Q', 'U', 'I', 'E', 'T']

/-- An alert reason's name (Table 7-5). -/
def alertText : AlertReason → Text
  | .above => ['A', 'B', 'O', 'V', 'E']
  | .below => ['B', 'E', 'L', 'O', 'W']
  | .move => ['M', 'O', 'V', 'E']
  | .halt => ['H', 'A', 'L', 'T']
  | .resume => ['R', 'E', 'S', 'U', 'M', 'E']

/-- What a DONE header carries as stored (R149, R152). -/
def infoTexts : StatusInfo → List Text
  | .nothing => []
  | .added => [['A', 'D', 'D', 'E', 'D']]
  | .updated => [['U', 'P', 'D', 'A', 'T', 'E', 'D']]
  | .modeStored mode interval => [modeText mode, decimal interval]

/-- The characters that a field is sent as. A blank field is empty text between its separators (assumption 16). An absent
price is sent as 0 and is readable as absent (R191; assumption 18). -/
def fieldCharacters : LineField → Text
  | .text t => t
  | .absentPrice => ['0']
  | .levelMarks above below move => Config.levelMarkText above below move

/-- What a station shows of a field it reads: an absent price blank, and every other field as it is sent (R145, R158). -/
def fieldShown : LineField → Text
  | .absentPrice => []
  | sent => fieldCharacters sent

/-- Fields joined by single spaces. -/
def joined : List LineField → Text
  | [] => []
  | [f] => fieldCharacters f
  | f :: rest => fieldCharacters f ++ [' '] ++ joined rest

/-- A line's forty text characters: its fields in order, filled with spaces and cut there (section 10.4). -/
def Line.text (l : Line) : Text := (joined l.fields ++ List.replicate 40 ' ').take 40

/-! ### Lines made from a record or an entry -/

/-- A price of a record on a desk line: on its grid with the dollars in full (R145). -/
def deskPrice (q : QuoteRecord) : Option Nat → LineField
  | none => .absentPrice
  | some p => .text (priceText q.grid p)

/-- A number of a quote's side, blank when absent. -/
def deskSize (side : Option (Nat × Nat)) : LineField := .text (blankOr (fun x => decimal x.2) side)

/-- The net change of a record, blank when absent (R25, R145). -/
def deskChange (q : QuoteRecord) : LineField := .text (blankOr (changeText q.grid) (netChange q))

/-- Both sides present with the bid above the ask (R40, Table 7-3). -/
def crossed (q : QuoteRecord) : Bool :=
  match q.bid, q.ask with
  | some (bid, _), some (ask, _) => decide (ask < bid)
  | _, _ => false

/-- The six lines of a QUOTE page (Table 7-3). -/
def quoteLine (q : QuoteRecord) : Nat → List LineField
  | 1 => [deskPrice q (q.last.map Prod.fst), deskChange q, .text (tickText q.tick)]
  | 2 => [deskPrice q (q.bid.map Prod.fst), deskSize q.bid, deskPrice q (q.ask.map Prod.fst), deskSize q.ask,
      .text (if crossed q then ['C', 'R', 'O', 'S', 'S', 'E', 'D'] else [])]
  | 3 => [.text (decimal q.volume)]
  | 4 => [deskPrice q q.opening, deskPrice q q.high, deskPrice q q.low]
  | 5 => [deskPrice q q.prevClose,
      .text (if q.halted.isSome then ['H', 'A', 'L', 'T', 'E', 'D'] else ['N', 'O', 'R', 'M', 'A', 'L']),
      .text (blankOr reasonText q.halted)]
  | _ => [.text (monitorText q.monitor.state), .text (blankOr directionText q.monitor.direction),
      .text (blankOr (fun last => timeText last.2) q.last)]

/-- The marker of a ring print on a RECENT page (R147). -/
def ringMarker : Condition → Text
  | .regular => []
  | .opened => ['O', 'P', 'D']
  | .sld => ['S', 'L', 'D']

/-- A line of a RECENT page (R147). -/
def ringLine (q : QuoteRecord) (p : Print) : List LineField :=
  [.text (decimal p.sequence), .text (priceText q.grid p.price), .text (decimal p.volume), .text (ringMarker p.condition)]

/-- The state mark of an entry line (R148). -/
def stateMark (q : QuoteRecord) : Text :=
  if q.halted.isSome then ['H', 'A', 'L', 'T', 'E', 'D']
  else if q.monitor.moving then ['F', 'A', 'S', 'T', ' '] ++ blankOr directionText q.monitor.direction
  else []

/-- An entry line (R148). -/
def entryLine (q : QuoteRecord) (e : WatchEntry) : List LineField :=
  [.text q.code, deskPrice q (q.last.map Prod.fst), deskChange q, .text (tickText q.tick), .text (stateMark q),
    .levelMarks e.above.isSome e.below.isSome e.move]

/-- An alert line (R158). -/
def alertLine (q : QuoteRecord) (a : Alert) : List LineField :=
  [.text q.code, .text (alertText a.reason), deskPrice q a.price]

/-! ### Headers and fixed sets (R145) -/

/-- A station's watch list; none for a number above 15. -/
def State.watchOf (s : State) (n : Nat) : List WatchEntry :=
  match s.desk.stations[n]? with
  | none => []
  | some st => st.watch

/-- A station's alert queue. -/
def State.alertsOf (s : State) (n : Nat) : List Alert :=
  match s.desk.stations[n]? with
  | none => []
  | some st => st.alerts

/-- A record's primary code, where it is occupied. -/
def State.codeOf (s : State) (r : Nat) : Text := blankOr QuoteRecord.code (s.record? r)

/-- The fields of a page's header (R145, section 10.4). -/
def State.headerFields (s : State) (page : Page) : List LineField :=
  let time := LineField.text (timeText s.store.floor)
  match page with
  | .status kind status info code =>
    [.text (blankOr requestName kind), .text (deskStatusText status)] ++ (infoTexts info).map LineField.text ++
      (match code with | none => [] | some c => [.text c]) ++ [time]
  | .quote r _ => [.text ['Q', 'U', 'O', 'T', 'E'], .text (s.codeOf r), time]
  | .recent r _ => [.text ['R', 'E', 'C', 'E', 'N', 'T'], .text (s.codeOf r), time]
  | .watch _ => [.text ['W', 'A', 'T', 'C', 'H'], time]
  | .changes _ _ => [.text ['W', 'A', 'T', 'C', 'H', ' ', 'C', 'H', 'A', 'N', 'G', 'E', 'S'], time]
  | .alerts _ => [.text ['A', 'L', 'E', 'R', 'T', 'S'], time]

/-- The page with its fixed set, taken as its header is rendered (R145 to R148; assumption 17). -/
def State.openPage (s : State) (n : Nat) (page : Page) : Page :=
  match page with
  | .quote r _ => .quote r [1, 2, 3, 4, 5, 6]
  | .recent r _ =>
    .recent r
      (match s.record? r with
       | none => []
       | some q => (q.ring.map Print.sequence).reverse)
  | .watch _ => .watch ((s.watchOf n).map WatchEntry.record)
  | other => other

/-! ### The next line of a page (R145, R155, R158, R159) -/

/-- The first of a RECENT page's fixed sequence numbers whose print still stands in the ring, and those after it (R147). DESIGN
CHOICE: a fixed print that a newer print of the same sequence number has replaced (R31) has a line, which shows the newer one
(assumption 44). -/
def nextPrint (ring : List Print) : List Nat → Option (Print × List Nat)
  | [] => none
  | q :: rest =>
    match ring.find? (fun p => decide (p.sequence = q)) with
    | some p => some (p, rest)
    | none => nextPrint ring rest

/-- The first of a WATCH page's fixed records whose entry still stands in the list, and those after it. -/
def nextFixedEntry (watch : List WatchEntry) : List Nat → Option (WatchEntry × List Nat)
  | [] => none
  | r :: rest =>
    match watch.find? (fun e => decide (e.record = r)) with
    | some e => some (e, rest)
    | none => nextFixedEntry watch rest

/-- The next line of a page of a station, with what it was made from and the page after it; none when no line is left. A page
has at most 12 lines after its header (R145): WATCH CHANGES and ALERTS pages count theirs (R155, R158), and the fixed set of
every other page holds no more. -/
def State.nextItem (s : State) (n : Nat) (page : Page) : Option (List LineField × LineSource × Page) :=
  match page with
  | .status _ _ _ _ => none
  | .quote r left =>
    match s.record? r, left with
    | some q, k :: rest => some (quoteLine q k, .plain, .quote r rest)
    | _, _ => none
  | .recent r left =>
    match s.record? r with
    | none => none
    | some q => (nextPrint q.ring left).map fun x => (ringLine q x.1, .plain, .recent r x.2)
  | .watch left =>
    match nextFixedEntry (s.watchOf n) left with
    | none => none
    | some (e, rest) => (s.record? e.record).map fun q => (entryLine q e, .entry e.record false, .watch rest)
  | .changes sent lines =>
    if 12 ≤ lines then none
    else
      match (s.watchOf n).find? (fun e => e.pending && decide (e.record ∉ sent)) with
      | none => none
      | some e =>
        (s.record? e.record).map fun q =>
          (entryLine q e, .entry e.record false, .changes (sent ++ [e.record]) (lines + 1))
  | .alerts count =>
    match s.alertsOf n with
    | [] => none
    | a :: _ =>
      if 12 ≤ count then none
      else (s.record? a.record).map fun q => (alertLine q a, .alert a, .alerts (count + 1))

/-- A line rendered as its sending begins (R145, section 10.4). -/
def State.renderLine (s : State) (number : Nat) (fields : List LineField) (source : LineSource) : Line where
  number := number
  stale := s.stale
  fields := fields
  source := source

end Sys2Proof.Machine
end

