-- ==== Sys2Proof/Machine/DeskFrames.lean ====
section
/-! DEFINITION. Frames on DESK DATA in characters (section 10.4): what the part sends in each state of the line, when a frame
from a station is read whole, and which row of the opcode table a whole frame is (R193). The gaps between characters are
timing: a list of characters here is what arrived with no gap longer than two character times (assumption 34). -/

namespace Sys2Proof.Machine

/-! ### The part's frames -/

/-- A frame ends with a check character that makes the sum of all its characters 0 modulo 256, as on the feed (section
10.4). -/
def frame (type : Nat) (fields : List Byte) : List Byte :=
  let front := BitVec.ofNat 8 type :: fields
  front ++ [- characterSum front]

/-- A LINE frame: the station, the line number, the marks with STALE in the lowest bit, and the forty text characters. -/
def lineFrame (station : Nat) (l : Line) : List Byte :=
  frame 6 (charactersOf 1 station ++ charactersOf 1 l.number ++ charactersOf 1 (flagBits [l.stale]) ++
    l.text.map boardCharacter)

/-- The frame that the line state and the transaction stand for: the last one the part has begun to send, none where it has
sent none (R125, R126, R129 to R131, R138, R139). -/
def State.deskFrame (s : State) : Option (List Byte) :=
  match s.desk.transaction with
  | none => if s.desk.line = .claim then some (frame 1 []) else none
  | some t =>
    match t.output with
    | .line l => some (lineFrame t.station l)
    | .ending broken => some (frame (if broken then 8 else 7) [])
    | .receiptAwaited => none
    | .suspending _ => some (frame 5 (charactersOf 1 t.station))
    | .nothing =>
      if s.desk.line = .selecting then some (frame 2 (charactersOf 1 t.station))
      else if s.desk.line = .reselecting then
        match t.kind with
        | .resumption _ => some (frame 4 (charactersOf 1 t.station))
        | _ => some (frame 3 (charactersOf 1 t.station))
      else none

/-! ### Frames from a station -/

/-- How many characters a REQUEST calls for, from type to check, by its kind and, for WATCH ADD, its flags; none while they
are still to come. A kind that is none of the six gives no number, and its frame is taken as what has arrived, with a kind
and a check (assumption 42). -/
def requestLength (arrived kind : Nat) (arguments : List Byte) : Option Nat :=
  match kind with
  | 1 => some 9
  | 2 => some 9
  | 3 => some 4
  | 4 =>
    match arguments.drop 5 with
    | [] => none
    | present :: _ =>
      some (10 + (if present.toNat.testBit 0 then 3 else 0) + (if present.toNat.testBit 1 then 3 else 0))
  | 5 => some 9
  | 6 => some 6
  | _ => some (max 4 arrived)

/-- How many characters a frame's type calls for; none for a type that is not one of the station's five, or while the
characters that say it are still to come (R193). SLOT ANSWER carries a number as the other three do (assumption 42). -/
def frameLength (arrived : Nat) : List Byte → Option Nat
  | [] => none
  | type :: rest =>
    if type = 12#8 then
      match rest with
      | _ :: kind :: arguments => requestLength arrived kind.toNat arguments
      | _ => none
    else if type = 9#8 ∨ type = 10#8 ∨ type = 11#8 ∨ type = 13#8 then some 3
    else none

/-- The characters up to the first one that cannot be read. -/
def readable : List (Option Byte) → List Byte
  | some b :: rest => b :: readable rest
  | _ => []

/-- The frame read whole from the characters that arrived: all that its type calls for, each of them readable (R193). -/
def wholeFrame (characters : List (Option Byte)) : Option (List Byte) :=
  match frameLength characters.length (readable characters) with
  | none => none
  | some length => if length ≤ (readable characters).length then some ((readable characters).take length) else none

/-- The request a kind and its arguments spell (section 10.4); a kind that is none of the six is UNKNOWN_REQUEST_KIND's. DESIGN
CHOICE: the bits 3 to 7 of WATCH ADD's presence flags, which name no field, are ignored (assumption 43). -/
def requestRow (kind : Nat) (arguments : List Byte) : Instr :=
  match kind with
  | 1 => .quoteRequest (codeOf (slice arguments 0 5))
  | 2 => .recent (codeOf (slice arguments 0 5))
  | 3 => .watchPage
  | 4 =>
    let present := fieldOf arguments 5 1
    let levels := arguments.drop 6
    let later := if present.testBit 0 then levels.drop 3 else levels
    .watchAdd (codeOf (slice arguments 0 5)) (if present.testBit 0 then some (fieldOf levels 0 3) else none)
      (if present.testBit 1 then some (fieldOf later 0 3) else none) (present.testBit 2)
  | 5 => .watchDrop (codeOf (slice arguments 0 5))
  | 6 => .setMode (fieldOf arguments 0 1) (fieldOf arguments 1 1)
  | _ => .unknownRequestKind

/-- A request frame with a right echo and check is its kind's row; any other is CHECK_ERROR's (R128). -/
def State.requestFrameRow (s : State) (bytes : List Byte) : Instr :=
  let echoRight :=
    match s.desk.transaction with
    | none => true
    | some t => decide (fieldOf bytes 1 1 = t.station)
  if echoRight = true ∧ characterSum bytes = 0 then requestRow (fieldOf bytes 2 1) (bytes.drop 3).dropLast else .checkError

/-- The row of the opcode table that the characters of a frame from a station are. A SLOT ANSWER is the answer of the station
in whose slot it starts, whatever number it carries (R193). The check of a frame that is no request is not examined: it is not
among the checks of R135 (assumption 42). -/
def State.frameRow (s : State) (slot : Nat) (characters : List (Option Byte)) : Instr :=
  match wholeFrame characters with
  | none => .deskFrameIncomplete
  | some bytes =>
    if bytes.head? = some 9#8 then .slotAnswer slot
    else if bytes.head? = some 10#8 then .answer (fieldOf bytes 1 1)
    else if bytes.head? = some 11#8 then .ready (fieldOf bytes 1 1)
    else if bytes.head? = some 13#8 then .receipt (fieldOf bytes 1 1)
    else s.requestFrameRow bytes

/-! ### A station's frames as it sends them -/

/-- A REQUEST frame of a kind (section 10.4). -/
def requestFrame (echo kind : Nat) (arguments : List Byte) : List Byte :=
  frame 12 (charactersOf 1 echo ++ charactersOf 1 kind ++ arguments)

/-- The kind number of a request row and its arguments; 0 and nothing for a row that is no request of the six. -/
def requestFields : Instr → Nat × List Byte
  | .quoteRequest code => (1, codeCharacters code)
  | .recent code => (2, codeCharacters code)
  | .watchPage => (3, [])
  | .watchAdd code above below move =>
    (4, codeCharacters code ++ charactersOf 1 (flagBits [above.isSome, below.isSome, move]) ++
      (match above with | none => [] | some level => charactersOf 3 level) ++
      (match below with | none => [] | some level => charactersOf 3 level))
  | .watchDrop code => (5, codeCharacters code)
  | .setMode mode interval => (6, charactersOf 1 mode ++ charactersOf 1 interval)
  | _ => (0, [])

/-- The request frame that a station sends for a request row. -/
def stationRequest (echo : Nat) (row : Instr) : List Byte :=
  requestFrame echo (requestFields row).1 (requestFields row).2

end Sys2Proof.Machine
end

