-- ==== Sys2Proof/Machine/DeskLine.lean ====
section
/-! DEFINITION. The desk line: how transactions begin, run and end, claim rounds, windows and failures, suspension and
resumption, the stuck watch and the presence scan (Chapter 6). Serving a request stands in Requests.lean. -/

namespace Sys2Proof.Machine

/-! ### The line becoming FREE (R123, R136) -/

/-- A reading some parameter units after now, where the stuck deadline is set (R136). -/
def stuckDeadline (s : State) : Reading := after s.clock (s.params.deskStuck * 100)

/-- The stuck deadline as the line, being FREE, sees the two signals: cleared when neither is held, set when one is and it
is not set already (R136). -/
def stuckWatched (deadline : Reading) (d : Desk) : Desk :=
  if d.attn || d.busy then
    match d.stuckAt with
    | none => { d with stuckAt := some deadline }
    | some _ => d
  else { d with stuckAt := none }

/-- The stuck deadline's expiry taken: the deadline cleared, the line CLEARING, the clear sequence begun (R136, R137). -/
def Desk.clearing (d : Desk) : Desk := { d with line := .clearing, stuckAt := none, retryAt := none }

/-- The line becoming FREE with its transaction over: an expiry that was held is taken at once, and otherwise the two signals
set or clear the stuck deadline (R123, R136). -/
def Desk.freed (d : Desk) (expiryHeld : Bool) (deadline : Reading) : Desk :=
  let free := { d with line := .free, transaction := none, answered := [] }
  if expiryHeld then free.clearing else stuckWatched deadline free

/-- A signal is held and the unit clock has reached the stuck deadline: its expiry is taken as soon as the line is FREE
(R136). -/
def State.expiryHeld (s : State) : Bool := due s.clock s.desk.stuckAt && (s.desk.attn || s.desk.busy)

/-- The transaction ends and the line becomes FREE (R123). An expiry of the stuck deadline that came while the line was not
FREE is taken at once if a signal is still held (R136). -/
def State.freeLine (s : State) : State := { s with desk := s.desk.freed s.expiryHeld (stuckDeadline s) }

/-- One station record changed. -/
def State.modifyStation (s : State) (n : Nat) (f : Station → Station) : State :=
  { s with desk := s.desk.modifyStation n f }

/-- One added to a station's window timeouts (R133). -/
def Station.countTimeout (st : Station) : Station :=
  { st with counters := { st.counters with windowTimeouts := bump st.counters.windowTimeouts 1 } }

/-- One added to a station's check errors (R128, R129). -/
def Station.countCheckError (st : Station) : Station :=
  { st with counters := { st.counters with checkErrors := bump st.counters.checkErrors 1 } }

/-- One added to a station's lost counter (R134). -/
def Station.countLost (st : Station) : Station :=
  { st with counters := { st.counters with lost := bump st.counters.lost 1 } }

/-- One added to a station's phase faults (R134). -/
def Station.countPhaseFault (st : Station) : Station :=
  { st with counters := { st.counters with phaseFaults := bump st.counters.phaseFaults 1 } }

/-- A failed delivery: counted, the run one longer, and the station ABSENT when the run reaches 3 (R132). -/
def Station.failDelivery (st : Station) : Station :=
  { st with
    counters := { st.counters with failedDeliveries := bump st.counters.failedDeliveries 1 }
    failedRun := min 3 (st.failedRun + 1)
    presence := if 3 ≤ st.failedRun + 1 then .absent else st.presence }

/-- A transaction aborted by a fault counted against its station (R134). -/
def State.abort (s : State) (count : Station → Station) : State :=
  match s.desk.transaction with
  | none => s
  | some t => (s.modifyStation t.station count).freeLine

/-- A whole frame that the phase does not await: a phase fault during a transaction, discarded outside one (R134). -/
def State.strayFrame (s : State) : State := s.abort Station.countPhaseFault

/-! ### Windows (R133) -/

/-- The answer window running from now (R133). -/
def State.answerWindowEnd (s : State) : Reading := after s.clock (s.params.answerWindow * 10)

/-- The request window running from now (R133). -/
def State.requestWindowEnd (s : State) : Reading := after s.clock (s.params.requestWindow * 10)

/-! ### Pages on the line (R129 to R131, R138, R139) -/

/-- The transaction in progress changed. -/
def State.withTransaction (s : State) (t : Transaction) : State := { s with desk := { s.desk with transaction := some t } }

/-- A page begins: its fixed set is taken and its header rendered and sent (R129, R131, R145). -/
def State.startPage (s : State) (t : Transaction) (line : LineState) (page : Page) : State :=
  let header := s.renderLine 0 (s.headerFields page) .header
  { s with desk := { s.desk with
      line := line
      transaction := some { t with
        page := some (s.openPage t.station page), nextLine := 1, output := .line header, window := none, held := none } } }

/-- The next line of a page rendered and sent, or END when no line is left (R129). -/
def State.sendNext (s : State) (t : Transaction) (page : Page) : State :=
  match s.nextItem t.station page with
  | none => s.withTransaction { t with output := .ending false, window := none }
  | some (fields, source, page') =>
    s.withTransaction { t with
      page := some page', nextLine := t.nextLine + 1, window := none
      output := .line (s.renderLine t.nextLine fields source) }

/-- The station whose alert delivery suspends the page of a station: the first other ATTACHED station with an alert
queued, in the round order of R124 item 2 (R138). -/
def Desk.causingStation (d : Desk) (served : Nat) : Option Nat :=
  firstInRound d.stations d.lastAlert fun n st =>
    decide (n ≠ served) && decide (st.presence = .attached) && decide (st.alerts ≠ [])

/-- A transaction whose page may be suspended at a line gap (R138). -/
def suspendable (kind : TransactionKind) : Bool :=
  match kind with
  | .alertDelivery => false
  | _ => true

/-- A line gap: END after the last line; otherwise a break, a suspension, or the next line (R129, R130, R138). -/
def State.lineGap (s : State) (t : Transaction) (page : Page) : State :=
  match s.nextItem t.station page with
  | none => s.sendNext t page
  | some _ =>
    if s.desk.line = .reply ∧ s.desk.attn = true then s.withTransaction { t with output := .ending true }
    else
      match (if suspendable t.kind ∧ s.desk.slot = none then s.desk.causingStation t.station else none) with
      | some causing => s.withTransaction { t with output := .suspending causing }
      | none => s.sendNext t page

/-- A delivery whose lines clear pending marks: a routine delivery, or the resumption of one (R155). -/
def clearsMarks (kind : TransactionKind) : Bool :=
  match kind with
  | .routineDelivery => true
  | .resumption reply => !reply
  | _ => false

/-- A STREAM delivery's page: a routine delivery that is a WATCH page (R155). -/
def streamPage (kind : TransactionKind) (page : Page) : Bool :=
  match kind, page with
  | .routineDelivery, .watch _ => true
  | _, _ => false

/-- What a line's completion removes from the station record (R154, R155, R158). -/
def Station.lineDelivered (kind : TransactionKind) (page : Page) (source : LineSource) (st : Station) : Station :=
  match source with
  | .header => if streamPage kind page then { st with streamDue := false } else st
  | .plain => st
  | .entry record marked =>
    if clearsMarks kind ∧ marked = false then
      { st with watch := st.watch.map fun e => if e.record = record then { e with pending := false } else e }
    else st
  | .alert a => { st with alerts := st.alerts.filter fun x => x != a }

/-- LINE_COMPLETION: a line finishes sending; what it delivers is cleared, and the line gap follows (R129, R131). -/
def execLineCompletion (s : State) : Host.Outcome State Fault Refusal :=
  match s.desk.transaction with
  | none => .next s
  | some t =>
    match t.output, t.page with
    | .line l, some page =>
      .next ((s.modifyStation t.station (Station.lineDelivered t.kind page l.source)).lineGap t page)
    | _, _ => .next s

/-- END_COMPLETION: END or END-BROKEN has been sent and the answer window for the receipt runs (R129). -/
def execEndCompletion (s : State) : Host.Outcome State Fault Refusal :=
  match s.desk.transaction with
  | none => .next s
  | some t =>
    match t.output with
    | .ending _ => .next (s.withTransaction { t with output := .receiptAwaited, window := some s.answerWindowEnd })
    | _ => .next s

/-- SUSPEND_COMPLETION: the slot takes the page and the line becomes FREE (R138). -/
def execSuspendCompletion (s : State) : Host.Outcome State Fault Refusal :=
  match s.desk.transaction with
  | none => .next s
  | some t =>
    match t.output, t.page with
    | .suspending causing, some page =>
      let suspended : SuspendedPage :=
        { station := t.station, reply := decide (s.desk.line = .reply), page := page, nextLine := t.nextLine,
          causing := causing, started := false }
      .next (State.freeLine { s with desk := { s.desk with slot := some suspended } })
    | _, _ => .next s

/-- RECEIPT: the receipt of a page ends the transaction; a wrong station number counts a check error (R129, R131). -/
def execReceipt (station : Nat) (s : State) : Host.Outcome State Fault Refusal :=
  match s.desk.transaction with
  | none => .next s
  | some t =>
    if t.output = .receiptAwaited then
      if station = t.station then .next s.freeLine
      else .next (s.modifyStation t.station Station.countCheckError).freeLine
    else .next s.strayFrame

/-! ### The arbiter (R124) -/

/-- The unit clock has reached the stuck deadline with the line FREE and a signal held: its expiry is to be taken, and the
arbiter starts nothing before it (R136; assumption 20). -/
def State.stuckDue (s : State) : Bool := decide (s.desk.line = .free) && s.expiryHeld

/-- The page in the slot is due for resumption (R124 item 1). -/
def Desk.resumptionDue (d : Desk) (p : SuspendedPage) : Bool :=
  p.started ||
    (match d.stations[p.causing]? with
     | none => true
     | some st => decide (st.presence ≠ .attached) || decide (st.alerts = []))

/-- A routine delivery is due for a station (R124 item 4). -/
def Station.routineDue (st : Station) : Bool :=
  decide (st.presence = .attached) &&
    (match st.mode with
     | .stream => st.streamDue
     | .event => st.watch.any WatchEntry.pending
     | .quiet => false)

/-- The first station in round order with an alert queued (R124 item 2). -/
def Desk.alertStation (d : Desk) : Option Nat :=
  firstInRound d.stations d.lastAlert fun _ st => decide (st.presence = .attached) && decide (st.alerts ≠ [])

/-- The first station in round order due for a routine delivery (R124 item 4). -/
def Desk.routineStation (d : Desk) : Option Nat :=
  firstInRound d.stations d.lastRoutine fun _ st => st.routineDue

/-- A transaction that begins with RESELECT or RESUME: RESELECTING with the answer window running (R131, R139). -/
def State.reselect (s : State) (station : Nat) (kind : TransactionKind) (page : Page) (nextLine : Nat) : State :=
  { s with desk := { s.desk with
      line := .reselecting
      transaction := some
        { station := station, kind := kind, page := some page, nextLine := nextLine, output := .nothing
          window := some s.answerWindowEnd, held := none } } }

/-- An alert delivery starts (R124 item 2). -/
def State.startAlert (s : State) (n : Nat) : State :=
  { s with desk := { s.desk with lastAlert := n } }.reselect n .alertDelivery (.alerts 0) 0

/-- The page a routine delivery carries, by the station's mode at its start (R155). -/
def routinePage (mode : StationMode) : Page :=
  match mode with
  | .stream => .watch []
  | _ => .changes [] 0

/-- A routine delivery starts (R124 item 4): the alternation mark is cleared. -/
def State.startRoutine (s : State) (n : Nat) : State :=
  match s.desk.stations[n]? with
  | none => s
  | some st =>
    { s with desk := { s.desk with lastRoutine := n, alternation := false } }.reselect n .routineDelivery
      (routinePage st.mode) 0

/-- A claim round starts: the alternation mark is set (R124, R125). -/
def State.startClaim (s : State) : State :=
  { s with desk := { s.desk with line := .claim, alternation := true, answered := [] } }

/-- A resumption starts: the slot is emptied and RESUME sent (R139). -/
def State.startResumption (s : State) (p : SuspendedPage) : State :=
  { s with desk := { s.desk with slot := none } }.reselect p.station (.resumption p.reply) p.page p.nextLine

/-- Items 3 and 4 of R124: a claim round when attention is raised, unless a routine delivery goes first; otherwise a
routine delivery when one is due. -/
def State.claimOrRoutine (s : State) : State :=
  match s.desk.routineStation with
  | none => if s.desk.attn then s.startClaim else s
  | some n => if s.desk.attn ∧ s.desk.alternation = false then s.startClaim else s.startRoutine n

/-- Items 2 to 4 of R124 when no suspended page goes first. -/
def State.alertOrLater (s : State) : State :=
  match s.desk.alertStation with
  | some n => s.startAlert n
  | none => s.claimOrRoutine

/-- ARBITER_START: with the line FREE and DESK BUSY not held, the first of R124's items that applies starts. -/
def execArbiterStart (s : State) : Host.Outcome State Fault Refusal :=
  if s.desk.line ≠ .free ∨ s.desk.busy = true ∨ s.stuckDue = true then .next s
  else
    match s.desk.slot with
    | none => .next s.alertOrLater
    | some p =>
      if s.desk.resumptionDue p then .next (s.startResumption p)
      else .next ({ s with desk := { s.desk with slot := some { p with started := true } } }.startAlert p.causing)

/-! ### Claim rounds (R125, R126) -/

/-- SLOT_ANSWER: a station answers in its own slot of a claim round; a DETACHED station's answer is ignored (R125). A slot
answer in a transaction is a frame its phase does not await (R134). -/
def execSlotAnswer (station : Nat) (s : State) : Host.Outcome State Fault Refusal :=
  if s.desk.line = .claim then
    match s.desk.stations[station]? with
    | none => .next s
    | some st =>
      if st.presence = .detached ∨ station ∈ s.desk.answered then .next s
      else .next { s with desk := { s.desk with answered := s.desk.answered ++ [station] } }
  else .next s.strayFrame

/-- The claimants at the completion of a round: the stations that answered and are ATTACHED or ABSENT (R125). -/
def Desk.isClaimant (d : Desk) (n : Nat) : Bool :=
  decide (n ∈ d.answered) &&
    (match d.stations[n]? with
     | none => false
     | some st => decide (st.presence ≠ .detached))

/-- The claimants in descending order of station number. -/
def Desk.claimants (d : Desk) : List Nat := ((List.range 16).filter d.isClaimant).reverse

/-- A station's served mark. -/
def Desk.isServed (d : Desk) (n : Nat) : Bool :=
  match d.stations[n]? with
  | none => false
  | some st => st.served

/-- An ABSENT claimant becomes ATTACHED with its run 0 (R125). -/
def Station.returned (st : Station) : Station :=
  if st.presence = .absent then { st with presence := .attached, failedRun := 0 } else st

/-- The stations after a round that selects one: ABSENT claimants ATTACHED, the served marks cleared when every claimant
had one, and the selected station's mark set (R125, R126). -/
def Desk.roundMarked (d : Desk) (selected : Nat) (clearAll : Bool) : List Station :=
  d.stations.mapIdx fun n st =>
    let st1 := if d.isClaimant n then st.returned else st
    { st1 with served := if n = selected then true else if clearAll then false else st1.served }

/-- SELECT sent to a station: SELECTING with the answer window running, the stuck deadline cleared (R126, R136). -/
def State.select (s : State) (n : Nat) (clearAll : Bool) : State :=
  { s with desk := { s.desk with
      stations := s.desk.roundMarked n clearAll
      line := .selecting
      answered := []
      stuckAt := none
      transaction := some
        { station := n, kind := .request, page := none, nextLine := 0, output := .nothing
          window := some s.answerWindowEnd, held := none } } }

/-- CLAIM_ROUND_COMPLETION: the round is void, or selects the highest claimant without a served mark, or the highest when
all have one (R126). -/
def execClaimRoundCompletion (s : State) : Host.Outcome State Fault Refusal :=
  if s.desk.line ≠ .claim then .next s
  else
    match s.desk.claimants, (s.desk.claimants.filter fun n => !s.desk.isServed n) with
    | [], _ => .next s.freeLine
    | _ :: _, n :: _ => .next (s.select n false)
    | n :: _, [] => .next (s.select n true)

/-! ### Answers and READY (R127, R131, R139) -/

/-- ANSWER: the selected station's answer to SELECT, with DESK BUSY held, starts the request phase (R127). -/
def execAnswer (station : Nat) (s : State) : Host.Outcome State Fault Refusal :=
  match s.desk.transaction with
  | none => .next s
  | some t =>
    if s.desk.line = .selecting then
      if station = t.station ∧ s.desk.busy = true then
        .next { s with desk := { s.desk with
          line := .request, transaction := some { t with window := some s.requestWindowEnd } } }
      else .next s
    else .next s.strayFrame

/-- READY taken: the failed-delivery run returns to 0 and the delivery begins, or the resumed page goes on (R131, R139). -/
def State.readyTaken (s : State) (t : Transaction) (page : Page) : State :=
  let s1 := s.modifyStation t.station fun st => { st with failedRun := 0 }
  match t.kind with
  | .resumption reply =>
    { s1 with desk := { s1.desk with line := if reply then .reply else .delivery } }.sendNext t page
  | _ => s1.startPage t .delivery page

/-- READY: a station's READY to RESELECT or RESUME, with DESK BUSY held (R131, R139). -/
def execReady (station : Nat) (s : State) : Host.Outcome State Fault Refusal :=
  match s.desk.transaction with
  | none => .next s
  | some t =>
    if s.desk.line = .reselecting then
      match t.page with
      | none => .next s
      | some page =>
        if station = t.station ∧ s.desk.busy = true then .next (s.readyTaken t page) else .next s
    else .next s.strayFrame

/-! ### Expiries and signals (R133, R136, R137) -/

/-- WINDOW_EXPIRY: the window running expires; in RESELECTING the delivery has failed, elsewhere a window timeout is
counted, and the line becomes FREE (R132, R133, R139). -/
def execWindowExpiry (s : State) : Host.Outcome State Fault Refusal :=
  match s.desk.transaction with
  | none => .next s
  | some t =>
    if due s.clock t.window then
      if s.desk.line = .reselecting then .next (s.modifyStation t.station Station.failDelivery).freeLine
      else .next (s.modifyStation t.station Station.countTimeout).freeLine
    else .next s

/-- The two signals as they now stand. -/
def State.signals (s : State) (attn busy : Bool) : State := { s with desk := { s.desk with attn := attn, busy := busy } }

/-- The line is in a phase that DESK BUSY must hold (R134). -/
def busyPhase (line : LineState) : Bool := decide (line = .request) || decide (line = .reply) || decide (line = .delivery)

/-- What the line makes of the signals after a change: the stuck deadline watched while FREE, and a STUCK line freed when
neither is held (R136, R137). -/
def State.signalsSeen (s : State) : State :=
  match s.desk.line with
  | .free => { s with desk := stuckWatched (stuckDeadline s) s.desk }
  | .stuck =>
    if s.desk.attn || s.desk.busy then s
    else { s with desk := { s.desk with retryAt := none } }.freeLine
  | _ => s

/-- DESK_SIGNAL_CHANGE: DESK ATTN and DESK BUSY as they now stand; a drop of DESK BUSY in REQUEST, REPLY or DELIVERY aborts
the transaction as lost (R134, R136, R137). -/
def execDeskSignalChange (attn busy : Bool) (s : State) : Host.Outcome State Fault Refusal :=
  if busyPhase s.desk.line = true ∧ s.desk.busy = true ∧ busy = false then
    .next ((s.signals attn busy).abort Station.countLost)
  else .next (s.signals attn busy).signalsSeen

/-- The clear sequence begins (R136, R137). -/
def State.startClearing (s : State) : State :=
  { s with desk := s.desk.clearing }

/-- STUCK_DEADLINE_EXPIRY: the deadline is taken with the line FREE and a signal held. While the line is not FREE the expiry
is held: the deadline stays set, and the line's becoming FREE takes it (R136). -/
def execStuckDeadlineExpiry (s : State) : Host.Outcome State Fault Refusal :=
  if s.stuckDue then .next s.startClearing else .next s

/-- CLEAR_SEQUENCE_COMPLETION: FREE when neither signal is held, STUCK with a retry in 5 s otherwise (R137). -/
def execClearSequenceCompletion (s : State) : Host.Outcome State Fault Refusal :=
  if s.desk.line ≠ .clearing then .next s
  else if s.desk.attn || s.desk.busy then
    .next { s with desk := { s.desk with line := .stuck, retryAt := some (after s.clock 5000) } }
  else .next s.freeLine

/-- RETRY_DEADLINE_EXPIRY: the clear sequence is sent again (R137). -/
def execRetryDeadlineExpiry (s : State) : Host.Outcome State Fault Refusal :=
  if s.desk.line = .stuck ∧ due s.clock s.desk.retryAt = true then .next s.startClearing else .next s

/-! ### The presence scan (R120 to R122) -/

/-- A station record as an attach sets it (R121). -/
def Station.attached (now : Reading) (st : Station) : Station :=
  { st with
    presence := .attached
    watch := st.watch.map fun e => { e with pending := false }
    alerts := []
    streamDue := decide (st.mode = .stream)
    streamAt := if st.mode = .stream then some (after now (st.interval * 1000)) else none
    served := false
    failedRun := 0 }

/-- A station record as a detach sets it (R122). -/
def Station.detached (st : Station) : Station :=
  { st with
    presence := .detached
    watch := st.watch.map fun e => { e with pending := false }
    alerts := []
    streamDue := false
    streamAt := none
    served := false
    failedRun := 0 }

/-- The slot after a detach: a page of the station discarded, a page it caused to wait taken as due (R122). -/
def slotAfterDetach (n : Nat) (slot : Option SuspendedPage) : Option SuspendedPage :=
  match slot with
  | none => none
  | some p => if p.station = n then none else if p.causing = n then some { p with started := true } else some p

/-- A station is detached: its transaction aborted without a count, the slot dealt with, its record set (R122). -/
def State.detach (s : State) (n : Nat) : State :=
  let s1 := { s with desk := { s.desk with slot := slotAfterDetach n s.desk.slot } }
  let s2 :=
    match s1.desk.transaction with
    | none => s1
    | some t => if t.station = n then s1.freeLine else s1
  s2.modifyStation n Station.detached

/-- One station at a scan: a change is confirmed where the input reads as at the previous scan and differs from what the
presence state says (R120). -/
def State.scanStation (reading : BitVec 16) (s : State) (n : Nat) : State :=
  match s.desk.stations[n]? with
  | none => s
  | some st =>
    if reading.getLsbD n = s.desk.scanPrevious.getLsbD n then
      if reading.getLsbD n = true ∧ st.presence = .detached then s.modifyStation n (Station.attached s.clock)
      else if reading.getLsbD n = false ∧ st.presence ≠ .detached then s.detach n
      else s
    else s

/-- PRESENCE_SCAN: the sixteen inputs are read; bit n is station n's input (R120). -/
def execPresenceScan (reading : BitVec 16) (s : State) : Host.Outcome State Fault Refusal :=
  if reached s.clock s.desk.scanAt then
    let s1 := (List.range 16).foldl (State.scanStation reading) s
    .next { s1 with desk := { s1.desk with scanPrevious := reading, scanAt := after s.desk.scanAt 100 } }
  else .next s

end Sys2Proof.Machine
end

