-- ==== Sys2Proof/Machine/Requests.lean ====
section
/-! DEFINITION. Desk requests: how a request frame is taken and served, and what each kind replies (R128, R144, R146 to
R152). -/

namespace Sys2Proof.Machine

/-- A reply page begins (R128). -/
def State.replyWith (s : State) (t : Transaction) (page : Page) : State := s.startPage t .reply page

/-- A request frame is awaited: the line is in REQUEST and no earlier request is held for a lookup (R128, R134). -/
def requestAwaited (s : State) (t : Transaction) : Bool := decide (s.desk.line = .request) && decide (t.held = none)

/-- A whole request frame with right echo and check: served when it is awaited, a phase fault when a transaction does not
await it, discarded outside one (R128, R134). -/
def State.takeRequest (s : State) (serve : Transaction → State) : State :=
  match s.desk.transaction with
  | none => s
  | some t => if requestAwaited s t then serve t else s.strayFrame

/-- R144's first two tests, and otherwise the rule of the request's kind. -/
def State.serveTested (s : State) (kind : Option RequestKind) (sound : Bool) (t : Transaction)
    (serve : Transaction → State) : State :=
  if s.manager.state = .held then s.replyWith t (.status kind .notReady .nothing none)
  else if sound = false then s.replyWith t (.status kind .badRequest .nothing none)
  else serve t

/-- UNKNOWN SYMBOL (Table 7-2). -/
def State.unknownSymbol (s : State) (t : Transaction) (kind : RequestKind) : State :=
  s.replyWith t (.status (some kind) .unknownSymbol .nothing none)

/-- A status page about one record, which carries its primary code (R145). -/
def State.recordStatus (s : State) (t : Transaction) (kind : RequestKind) (status : DeskStatus) (info : StatusInfo)
    (r : Nat) : State :=
  s.replyWith t (.status (some kind) status info ((s.record? r).map QuoteRecord.code))

/-- An entry of a station's list for a record (R149). -/
def State.holdsEntry (s : State) (n r : Nat) : Bool := (s.watchOf n).any fun e => decide (e.record = r)

/-- An entry's levels and move flag replaced, its position, mark and alert kept (R149). -/
def Station.updateEntry (r : Nat) (above below : Option Nat) (move : Bool) (st : Station) : Station :=
  { st with watch := st.watch.map fun e =>
      if e.record = r then { e with above := above, below := below, move := move } else e }

/-- A new entry at the end of the list, with no mark (R149). -/
def Station.addEntry (r : Nat) (above below : Option Nat) (move : Bool) (st : Station) : Station :=
  { st with watch := st.watch ++
      [{ record := r, above := above, below := below, move := move, pending := false }] }

/-- WATCH ADD for the record found (R149). -/
def State.watchAdd (s : State) (t : Transaction) (r : Nat) (above below : Option Nat) (move : Bool) : State :=
  if s.holdsEntry t.station r then
    (s.modifyStation t.station (Station.updateEntry r above below move)).recordStatus t .watchAdd .done .updated r
  else if 12 ≤ (s.watchOf t.station).length then s.recordStatus t .watchAdd .listFull .nothing r
  else (s.modifyStation t.station (Station.addEntry r above below move)).recordStatus t .watchAdd .done .added r

/-- WATCH DROP for the record found (R150). -/
def State.watchDrop (s : State) (t : Transaction) (r : Nat) : State :=
  if s.holdsEntry t.station r then
    State.recordStatus { s with desk := s.desk.dropWatch t.station r } t .watchDrop .done .nothing r
  else s.recordStatus t .watchDrop .notOnList .nothing r

/-- A request that needs a lookup, served against the directory as it stands (R146, R147, R149, R150). -/
def State.serveLookup (s : State) (t : Transaction) (request : LookupRequest) : State :=
  match request with
  | .quote code =>
    match lookupCode s.directory.entries code with
    | none => s.unknownSymbol t .quote
    | some r => s.replyWith t (.quote r [])
  | .recent code =>
    match lookupCode s.directory.entries code with
    | none => s.unknownSymbol t .recent
    | some r => s.replyWith t (.recent r [])
  | .watchAdd code above below move =>
    match lookupCode s.directory.entries code with
    | none => s.unknownSymbol t .watchAdd
    | some r => s.watchAdd t r above below move
  | .watchDrop code =>
    match lookupCode s.directory.entries code with
    | none => s.unknownSymbol t .watchDrop
    | some r => s.watchDrop t r

/-- A request that needs a lookup: held in REQUEST with no window while lookups are stopped, served at once otherwise
(R128, R144). -/
def State.lookupRequest (s : State) (t : Transaction) (request : LookupRequest) : State :=
  if s.lookupsStopped then s.withTransaction { t with held := some request, window := none }
  else s.serveLookup t request

/-- A held request is served when lookups resume (R3, R128). -/
def State.serveHeld (s : State) : State :=
  match s.desk.transaction with
  | none => s
  | some t =>
    match t.held with
    | none => s
    | some request => if s.lookupsStopped then s else s.serveLookup t request

/-- A request frame with a wrong echo or check character (R128): counted and answered with a CHECK ERROR page, whatever the
unit state (R144). -/
def State.checkErrorFrame (s : State) : State :=
  s.takeRequest fun t =>
    (s.modifyStation t.station Station.countCheckError).replyWith t (.status none .checkError .nothing none)

/-! ### The commands -/

/-- CHECK_ERROR (R128, R135). -/
def execCheckError (s : State) : Host.Outcome State Fault Refusal := .next s.checkErrorFrame

/-- DESK_FRAME_INCOMPLETE: a frame that `wholeFrame` does not read whole counts as a frame with a wrong check in REQUEST and is
discarded in every other phase (R135, R193). -/
def execDeskFrameIncomplete (s : State) : Host.Outcome State Fault Refusal :=
  if s.desk.line = .request then .next s.checkErrorFrame else .next s

/-- QUOTE_REQUEST (R146). -/
def execQuoteRequest (code : Code) (s : State) : Host.Outcome State Fault Refusal :=
  .next (s.takeRequest fun t => s.serveTested (some .quote) true t fun t => s.lookupRequest t (.quote code))

/-- RECENT (R147). -/
def execRecent (code : Code) (s : State) : Host.Outcome State Fault Refusal :=
  .next (s.takeRequest fun t => s.serveTested (some .recent) true t fun t => s.lookupRequest t (.recent code))

/-- WATCH_PAGE (R148). -/
def execWatchPage (s : State) : Host.Outcome State Fault Refusal :=
  .next (s.takeRequest fun t => s.serveTested (some .watchPage) true t fun t => s.replyWith t (.watch []))

/-- WATCH_ADD (R149): a level of 0 or above 1,048,575 is BAD REQUEST (R144). -/
def execWatchAdd (code : Code) (above below : Option Nat) (move : Bool) (s : State) :
    Host.Outcome State Fault Refusal :=
  .next (s.takeRequest fun t =>
    s.serveTested (some .watchAdd) (isPriceOption above && isPriceOption below) t fun t =>
      s.lookupRequest t (.watchAdd code above below move))

/-- WATCH_DROP (R150). -/
def execWatchDrop (code : Code) (s : State) : Host.Outcome State Fault Refusal :=
  .next (s.takeRequest fun t => s.serveTested (some .watchDrop) true t fun t => s.lookupRequest t (.watchDrop code))

/-- SET MODE acted on for the station in transaction (R152). -/
def State.setModeFor (s : State) (t : Transaction) (mode : Option StationMode) (interval : Nat) : State :=
  match mode with
  | none => s
  | some m =>
    (s.modifyStation t.station (Station.setMode s.clock m interval)).replyWith t
      (.status (some .setMode) .done (.modeStored m (clamp 1 60 interval)) none)

/-- SET_MODE (R152): a mode that is none of the three is BAD REQUEST (R144). -/
def execSetMode (mode interval : Nat) (s : State) : Host.Outcome State Fault Refusal :=
  .next (s.takeRequest fun t =>
    s.serveTested (some .setMode) (modeOf mode).isSome t fun t => s.setModeFor t (modeOf mode) interval)

/-- UNKNOWN_REQUEST_KIND: a kind that is none of the six is answered BAD REQUEST, or NOT READY while HELD (R144). -/
def execUnknownRequestKind (s : State) : Host.Outcome State Fault Refusal :=
  .next (s.takeRequest fun t => s.serveTested none false t fun _ => s)

end Sys2Proof.Machine
end

