-- ==== Sys2Proof/Machine/Directory.lean ====
section
/-! DEFINITION. The directory operations: their checks at taking, DRAINING and WORKING, and their completions (Chapter 1). -/

namespace Sys2Proof.Machine

/-! ### Taking (R4 to R6) -/

/-- A marked message stands in the intake queue (R6). -/
def Intake.holdsMarked (i : Intake) : Bool := i.queue.any IntakeMessage.marked

/-- DRAINING gives way to WORKING when no marked message is left and no walk is in flight (R6). -/
def State.beginWorking (s : State) : State :=
  match s.directory.operation with
  | .draining work held =>
    if s.intake.holdsMarked = false ∧ s.store.walk = none then
      { s with directory := { s.directory with operation := .working work held } }
    else s
  | _ => s

/-- Every message in the intake queue marked (R6). -/
def Intake.markAll (i : Intake) : Intake := { i with queue := i.queue.map fun m => { m with marked := true } }

/-- An accepted operation: the messages that came before it marked, its place held, DRAINING begun (R5, R6). -/
def State.acceptOperation (s : State) (work : DirWork) (route : Route) : State :=
  State.beginWorking
    { s with
      directory := { s.directory with operation := .draining work (decide (route = .place)) }
      intake := s.intake.markAll }

/-- R4: BUSY while an operation is held or a walk is in flight; otherwise the checks' refusal, or acceptance. -/
def State.examineOperation (s : State) (echo : Nat) (route : Route) (outcome : Status ⊕ DirWork) : State :=
  if s.directory.isIdle = false ∨ s.store.walk.isSome = true then s.refuse route echo .busy
  else
    match outcome with
    | .inl status => s.refuse route echo status
    | .inr work => s.acceptOperation work route

/-- R10's checks of LOAD SYMBOL in their order; the settings are clamped, not refused. -/
def State.checkLoad (s : State) (a : LoadArgs) : Status ⊕ DirWork :=
  if loadArgsSound a = false then .inl .badArgument
  else if 512 ≤ countEntries s.directory.entries .primary then .inl .noRoom
  else if (s.record? a.record).isSome = true ∨ (lookupCode s.directory.entries a.code).isSome = true then .inl .exists_
  else .inr (.load { a with settings := clampSettings a.settings })

/-- R13's checks of ADD ALIAS in their order. -/
def State.checkAddAlias (s : State) (code : Code) (record : Nat) : Status ⊕ DirWork :=
  if wellFormedCode code = false ∨ 512 ≤ record then .inl .badArgument
  else if (s.record? record).isNone then .inl .notFound
  else if 64 ≤ countEntries s.directory.entries .aliased then .inl .noRoom
  else if (lookupCode s.directory.entries code).isSome then .inl .exists_
  else .inr (.addAlias code record)

/-- R14's checks of DROP ALIAS. -/
def State.checkDropAlias (s : State) (code : Code) : Status ⊕ DirWork :=
  if wellFormedCode code = false then .inl .badArgument
  else
    match findEntry s.directory.entries code with
    | none => .inl .notFound
    | some e => if e.kind = .aliased then .inr (.dropAlias code) else .inl .notFound

/-- R15's checks of DROP SYMBOL. -/
def State.checkDropSymbol (s : State) (code : Code) : Status ⊕ DirWork :=
  if wellFormedCode code = false then .inl .badArgument
  else
    match findEntry s.directory.entries code with
    | none => .inl .notFound
    | some e => if e.kind = .primary then .inr (.dropSymbol code e.record) else .inl .notFound

/-- LOAD SYMBOL as the unit manager deals with it (R4, R10). -/
def dealLoadSymbol (a : LoadArgs) (route : Route) (s : State) : State := s.examineOperation 4 route (s.checkLoad a)

/-- ADD ALIAS as the unit manager deals with it (R4, R13). -/
def dealAddAlias (code : Code) (record : Nat) (route : Route) (s : State) : State :=
  s.examineOperation 5 route (s.checkAddAlias code record)

/-- DROP ALIAS as the unit manager deals with it (R4, R14). -/
def dealDropAlias (code : Code) (route : Route) (s : State) : State :=
  s.examineOperation 6 route (s.checkDropAlias code)

/-- DROP SYMBOL as the unit manager deals with it (R4, R15). -/
def dealDropSymbol (code : Code) (route : Route) (s : State) : State :=
  s.examineOperation 7 route (s.checkDropSymbol code)

/-! ### Completion (R7) -/

/-- The held place is the route of the operation's DONE (R5). -/
def heldRoute (placeHeld : Bool) : Route := if placeHeld then .place else .broadcast

/-- An operation's completion: DONE, IDLE again, and lookups resumed (R5, R7, R128). -/
def State.completeOperation (s : State) (placeHeld : Bool) (echo : Nat) (body : ReplyBody) : State :=
  State.serveHeld
    (State.answer { s with directory := { s.directory with operation := .idle } } (heldRoute placeHeld) echo .done body)

/-- The directory's entries replaced. -/
def State.setEntries (s : State) (entries : List Entry) : State :=
  { s with directory := { s.directory with entries := entries } }

/-- A record's fields at its load (R11). -/
def loadedRecord (a : LoadArgs) : QuoteRecord where
  code := a.code
  grid := a.grid
  maskA := a.maskA
  maskB := a.maskB
  cells := a.cells.map fun c => cellNumber c.1 c.2
  halted := none
  prevClose := a.prevClose
  last := none
  reference := none
  tick := .noTick
  opening := none
  high := none
  low := none
  volume := 0
  bid := none
  ask := none
  ring := []
  traded := false
  monitor := Monitor.loaded a.settings a.prevClose

/-- One cell of a load: taken out of another record's list and named for the new record (R12). -/
def State.takeCell (record : Nat) (s : State) (cell : Nat) : State := (s.detachCell cell).nameCell cell (some record)

/-- The changes of LOAD SYMBOL's completion to the directory, record and cells (R11, R12). -/
def State.loadRecord (s : State) (a : LoadArgs) : State :=
  let cells := a.cells.map fun c => cellNumber c.1 c.2
  let s1 := s.setEntries (insertEntry s.directory.entries { code := a.code, record := a.record, kind := .primary })
  let s2 := cells.foldl (State.takeCell a.record) s1
  (s2.setRecord a.record (loadedRecord a)).markCells cells

/-- LOAD_SYMBOL_COMPLETION (R7, R11, R12). -/
def execLoadSymbolCompletion (s : State) : Host.Outcome State Fault Refusal :=
  match s.directory.operation with
  | .working (.load a) held => .next ((s.loadRecord a).completeOperation held 4 (.codeRecord a.code a.record))
  | _ => .next s

/-- ADD_ALIAS_COMPLETION (R13). -/
def execAddAliasCompletion (s : State) : Host.Outcome State Fault Refusal :=
  match s.directory.operation with
  | .working (.addAlias code record) held =>
    .next ((s.setEntries (insertEntry s.directory.entries { code := code, record := record, kind := .aliased }))
      |>.completeOperation held 5 (.codeRecord code record))
  | _ => .next s

/-- DROP_ALIAS_COMPLETION (R14). -/
def execDropAliasCompletion (s : State) : Host.Outcome State Fault Refusal :=
  match s.directory.operation with
  | .working (.dropAlias code) held =>
    .next ((s.setEntries (s.directory.entries.filter fun e => decide (e.code ≠ code)))
      |>.completeOperation held 6 (.code code))
  | _ => .next s

/-- The changes of DROP SYMBOL's completion: entries, cells, watch entries, and the record freed (R15 to R17). -/
def State.dropRecord (s : State) (r : Nat) : State :=
  let cells := cellsOf (s.record? r)
  let s1 := s.setEntries (s.directory.entries.filter fun e => e.record != r)
  let s2 := cells.foldl (fun x c => x.nameCell c none) s1
  let s3 := { s2 with store := { s2.store with records := tableErase s2.store.records r } }
  { s3.markCells cells with desk := s.desk.freeRecord r }

/-- DROP_SYMBOL_COMPLETION (R15 to R17): the record is taken as it stands at the completion. -/
def execDropSymbolCompletion (s : State) : Host.Outcome State Fault Refusal :=
  match s.directory.operation with
  | .working (.dropSymbol code r) held => .next ((s.dropRecord r).completeOperation held 7 (.codeRecord code r))
  | _ => .next s

end Sys2Proof.Machine
end

