-- ==== Sys2Proof/Machine/Market.lean ====
section
/-! DEFINITION. Market messages: what each does to its record and hands to the other blocks (Chapter 2), the classifier
that takes them (R173, R174), the DAY START walk and floor time. -/

namespace Sys2Proof.Machine

/-! ### The fields a print moves (R27 to R31) -/

/-- The tick and reference price after a regular print (R27). -/
def tickAfter (q : QuoteRecord) (price : Nat) : Tick × Option Nat :=
  match q.last with
  | none =>
    match q.prevClose with
    | none => (.noTick, q.reference)
    | some close =>
      if close < price then (.up, some close) else if price < close then (.down, some close) else (.noTick, q.reference)
  | some (last, _) =>
    if last < price then (.up, some last)
    else if price < last then (.down, some last)
    else
      match q.tick with
      | .up => (.zeroPlus, q.reference)
      | .zeroPlus => (.zeroPlus, q.reference)
      | .down => (.zeroMinus, q.reference)
      | .zeroMinus => (.zeroMinus, q.reference)
      | .noTick => (.noTick, q.reference)

/-- Open after a regular print (R29). -/
def openAfter (opening : Option Nat) (condition : Condition) (price : Nat) : Option Nat :=
  match opening with
  | none => some price
  | some present => if condition = .opened then some price else some present

/-- High after a regular print (R29). -/
def highAfter (high : Option Nat) (price : Nat) : Option Nat :=
  match high with
  | none => some price
  | some present => if present < price then some price else some present

/-- Low after a regular print (R29). -/
def lowAfter (low : Option Nat) (price : Nat) : Option Nat :=
  match low with
  | none => some price
  | some present => if price < present then some price else some present

/-- A print pushed onto a recent ring (R31). -/
def pushRing (ring : List Print) (p : Print) : List Print :=
  let others := ring.filter fun x => x.sequence != p.sequence
  (if 4 ≤ others.length then others.drop 1 else others) ++ [p]

/-- The record after a regular print, and whether its monitor entered ACTIVE (R36). -/
def QuoteRecord.regularPrint (q : QuoteRecord) (p : Print) (floor : FloorTime) (now : Reading) (moveHold : Nat) :
    QuoteRecord × Bool :=
  let monitored := q.monitor.take p.price now moveHold
  ({ q with
     tick := (tickAfter q p.price).1
     reference := (tickAfter q p.price).2
     last := some (p.price, floor)
     opening := openAfter q.opening p.condition p.price
     high := highAfter q.high p.price
     low := lowAfter q.low p.price
     volume := addVolume q.volume p.volume
     ring := pushRing q.ring p
     traded := true
     monitor := monitored.1 }, monitored.2)

/-- The record after an SLD print (R38). -/
def QuoteRecord.sldPrint (q : QuoteRecord) (p : Print) : QuoteRecord :=
  { q with volume := addVolume q.volume p.volume, ring := pushRing q.ring { p with condition := .sld } }

/-! ### PRINT (R24, R35 to R39) -/

/-- One added to the off-grid counter for a print off its symbol's grid (R24). -/
def State.countOffGrid (s : State) (grid price : Nat) : State :=
  if onGrid grid price then s
  else { s with counters := { s.counters with offGrid := bump s.counters.offGrid 1 } }

/-- Tape A is offered a listed symbol's prints and cancels by its mask, or by scope ALL (R39, R44). -/
def State.toTapeA (s : State) (q : QuoteRecord) : Bool := q.maskA || s.params.scopeAll

/-- A print of 100 shares or more offered to the tapes (R39). -/
def State.offerPrint (s : State) (q : QuoteRecord) (p : Print) : State :=
  if 100 ≤ p.volume then
    s.offer (s.toTapeA q) q.maskB (.print q.code p.price q.grid p.volume p.condition [p.sequence])
  else s

/-- A print taken as regular: a NORMAL record and condition REGULAR or OPENED (R35). -/
def takenAsRegular (q : QuoteRecord) (condition : Condition) : Bool := q.halted.isNone && decide (condition ≠ .sld)

/-- A PRINT applied to its record (R35 to R39). -/
def State.applyPrint (s : State) (r : Nat) (q : QuoteRecord) (p : Print) : State :=
  let s1 := s.countOffGrid q.grid p.price
  if takenAsRegular q p.condition then
    let taken := q.regularPrint p s.store.floor s.clock s.params.moveHold
    let s2 := (s1.setRecord r taken.1).markCells q.cells
    let s3 := { s2 with desk := s2.desk.touch r (lastChanged (q.last.map Prod.fst) (some p.price) taken.2) }
    s3.offerPrint q p
  else
    ((s1.setRecord r (q.sldPrint p)).markCells q.cells).offerPrint q { p with condition := .sld }

/-! ### QUOTE, CANCEL (R40 to R44) -/

/-- A QUOTE applied: each side replaced or made absent (R40). -/
def State.applyQuote (s : State) (r : Nat) (q : QuoteRecord) (bid ask : Option (Nat × Nat)) : State :=
  s.setRecord r { q with bid := bid, ask := ask }

/-- A print of condition REGULAR or OPENED. -/
def Print.isRegular (p : Print) : Bool := decide (p.condition ≠ .sld)

/-- The newest print of condition REGULAR or OPENED in a ring (R42). -/
def newestRegular (ring : List Print) : Option Print := (ring.filter Print.isRegular).getLast?

/-- A cancelled print was the newest regular print of the ring (R42). -/
def cancelsLast (ring : List Print) (sequence : Nat) : Bool :=
  match newestRegular ring with
  | none => false
  | some p => decide (p.sequence = sequence)

/-- A ring without the print of a sequence number (R42). -/
def withoutPrint (ring : List Print) (sequence : Nat) : List Print := ring.filter fun p => p.sequence != sequence

/-- Last after the newest regular print is cancelled: the newest regular price that remains, last's time kept (R42). -/
def lastReverted (q : QuoteRecord) (ring : List Print) : Option (Nat × FloorTime) :=
  match newestRegular ring, q.last with
  | some p, some (_, time) => some (p.price, time)
  | _, _ => none

/-- The record after a CANCEL of a print found in its ring (R42). -/
def QuoteRecord.cancelFound (q : QuoteRecord) (p : Print) : QuoteRecord :=
  let ring := withoutPrint q.ring p.sequence
  let q1 := { q with ring := ring, volume := subtractVolume q.volume p.volume }
  if cancelsLast q.ring p.sequence then
    { q1 with last := lastReverted q ring, tick := .noTick, reference := none }
  else q1

/-- The record's cells marked, and the watch entries told when last moved (R42). -/
def State.afterCancelFound (s : State) (r : Nat) (q q' : QuoteRecord) (sequence : Nat) : State :=
  let s1 := (s.setRecord r q').markCells q.cells
  if cancelsLast q.ring sequence then
    { s1 with desk := s1.desk.touch r (lastChanged (q.last.map Prod.fst) (q'.last.map Prod.fst) false) }
  else s1

/-- A CANCEL applied to its record and handed to the tapes (R41 to R44). -/
def State.applyCancel (s : State) (r : Nat) (q : QuoteRecord) (sequence price volume : Nat) : State :=
  match q.ring.find? (fun p => decide (p.sequence = sequence)) with
  | some p =>
    (s.afterCancelFound r q (q.cancelFound p) sequence).cancel (s.toTapeA q) q.maskB q.code sequence price q.grid p.volume
  | none =>
    ((s.setRecord r { q with volume := subtractVolume q.volume volume }).markCells q.cells).cancel (s.toTapeA q) q.maskB
      q.code sequence price q.grid volume

/-! ### HALT, RESUME, FIGURES (R45 to R48) -/

/-- A HALT applied (R45, R46). -/
def State.applyHalt (s : State) (r : Nat) (q : QuoteRecord) (reason : HaltReason) : State :=
  if q.halted.isSome then s.setRecord r { q with halted := some reason }
  else
    let s1 := (s.setRecord r { q with halted := some reason, monitor := q.monitor.calmed }).markCells q.cells
    let s2 := { s1 with desk := s1.desk.touch r (alertOf .halt (q.last.map Prod.fst)) }
    s2.offer q.maskA q.maskB (.halted q.code reason)

/-- A RESUME applied (R47). -/
def State.applyResume (s : State) (r : Nat) (q : QuoteRecord) : State :=
  if q.halted.isNone then s
  else
    let monitor := { q.monitor with baseline := settledBaseline q.last q.prevClose q.monitor.baseline }
    let s1 := (s.setRecord r { q with halted := none, monitor := monitor }).markCells q.cells
    let s2 := { s1 with desk := s1.desk.touch r (alertOf .resume (q.last.map Prod.fst)) }
    s2.offer q.maskA q.maskB (.resumed q.code)

/-- A field a FIGURES marks present replaced (R48). -/
def orKept {α : Type} (given kept : Option α) : Option α :=
  match given with
  | some v => some v
  | none => kept

/-- The record after a FIGURES (R48, R69). -/
def QuoteRecord.figures (q : QuoteRecord) (prevClose : Nat) (opening high low volume : Option Nat) : QuoteRecord :=
  { q with
    prevClose := some prevClose
    opening := orKept opening q.opening
    high := orKept high q.high
    low := orKept low q.low
    volume := volume.getD q.volume
    monitor := if q.traded then q.monitor else { q.monitor with baseline := some (prevClose * 256) } }

/-- A FIGURES applied (R48). -/
def State.applyFigures (s : State) (r : Nat) (q : QuoteRecord) (prevClose : Nat) (opening high low volume : Option Nat) :
    State :=
  (s.setRecord r (q.figures prevClose opening high low volume)).markCells q.cells

/-! ### Messages without a code (R49, R50, R54, R93) -/

/-- A SESSION message applied (R49, R93). -/
def State.applySession (s : State) (value : Nat) : State :=
  if value = 0 then
    State.offer { s with store := { s.store with session := .opened } } true true .sessionOpen
  else State.offer { s with store := { s.store with session := .closed } } true true .sessionClosed

/-- A TIME message applied: floor time set, its seconds counted from now (R54). -/
def State.applyTime (s : State) (hours minutes seconds : Nat) : State :=
  { s with store := { s.store with floor := ⟨hours, minutes, seconds⟩, secondAt := after s.clock 1000 } }

/-- A DAY START taken: the session PRE-OPEN and the walk at its beginning (R50). -/
def State.beginWalk (s : State) : State := { s with store := { s.store with session := .preOpen, walk := some 0 } }

/-! ### The classifier (R173, R174) -/

/-- The code a market message carries. -/
def messageCode : MarketMsg → Option Code
  | .print code _ _ _ => some code
  | .quote code _ _ => some code
  | .cancel code _ _ _ => some code
  | .halt code _ => some code
  | .resume code => some code
  | .figures code _ _ _ _ _ => some code
  | _ => none

/-- A message applied to the record its code names (R34, R174 item 4). -/
def State.applyToRecord (s : State) (r : Nat) (q : QuoteRecord) (sequence : Nat) (msg : MarketMsg) : State :=
  match msg with
  | .print _ price volume condition =>
    match conditionOf condition with
    | none => s
    | some c => s.applyPrint r q { sequence := sequence, price := price, volume := volume, condition := c }
  | .quote _ bid ask => s.applyQuote r q bid ask
  | .cancel _ cancelled price volume => s.applyCancel r q cancelled price volume
  | .halt _ reason =>
    match reasonOf reason with
    | none => s
    | some why => s.applyHalt r q why
  | .resume _ => s.applyResume r q
  | .figures _ prevClose opening high low volume => s.applyFigures r q prevClose opening high low volume
  | _ => s

/-- A PRINT or CANCEL of a code not found, handed to tape A under scope ALL (R90, R174 items 5 and 6). -/
def State.applyUnlisted (s : State) (sequence : Nat) (msg : MarketMsg) : State :=
  if s.params.scopeAll = false then s
  else
    match msg with
    | .print code price volume condition =>
      match conditionOf condition with
      | none => s
      | some c => if 100 ≤ volume then s.offerTo .a (.print code price 64 volume c [sequence]) else s
    | .cancel code cancelled price volume => s.cancelOn .a code cancelled price 64 volume
    | _ => s

/-- A sound message of a RUNNING unit dealt with (R174 items 3 to 6). -/
def State.applyMessage (s : State) (sequence : Nat) (msg : MarketMsg) : State :=
  match msg with
  | .dayStart => s.beginWalk
  | .session value => s.applySession value
  | .time hours minutes seconds => s.applyTime hours minutes seconds
  | .notice text => s.offer true true (.notice (text.take 32))
  | other =>
    match (messageCode other).bind (lookupCode s.directory.entries) with
    | none => s.applyUnlisted sequence other
    | some r =>
      match s.record? r with
      | none => s
      | some q => s.applyToRecord r q sequence other

/-- A message taken by the classifier dealt with by the first of R174's tests that applies. -/
def State.classify (s : State) (m : IntakeMessage) : State :=
  if s.manager.state = .held then
    { s with counters := { s.counters with heldDiscards := bump s.counters.heldDiscards 1 } }
  else if messageSound s.store.session m.message = false then
    { s with counters := { s.counters with malformed := bump s.counters.malformed 1 } }
  else s.applyMessage m.sequence m.message

/-- R173's conditions on taking the head of the intake queue. -/
def State.mayTake (s : State) (head : IntakeMessage) : Bool :=
  !s.directory.isWorking && s.store.walk.isNone && (!s.directory.isDraining || head.marked)

/-- CLASSIFIER_TAKE: the head of the intake queue is taken and dealt with; a directory operation that waited for it begins
its working phase (R6, R173, R174). -/
def execClassifierTake (s : State) : Host.Outcome State Fault Refusal :=
  match s.intake.queue with
  | [] => .next s
  | head :: rest =>
    if s.mayTake head then
      .next (State.classify { s with intake := { s.intake with queue := rest } } head).beginWorking
    else .next s

/-! ### The DAY START walk, floor time and the move hold (R51 to R54, R66) -/

/-- The next occupied record at or after a number. -/
def nextOccupied (records : List (Nat × QuoteRecord)) (start : Nat) : Option (Nat × QuoteRecord) :=
  records.find? fun e => decide (start ≤ e.1)

/-- A record as the walk's step leaves it (R51). -/
def QuoteRecord.dayStarted (q : QuoteRecord) : QuoteRecord :=
  let prevClose := orKept (q.last.map Prod.fst) q.prevClose
  { q with
    prevClose := prevClose
    last := none
    reference := none
    opening := none
    high := none
    low := none
    volume := 0
    tick := .noTick
    ring := []
    traded := false
    halted := none
    monitor := { q.monitor.calmed with baseline := prevClose.map (· * 256) } }

/-- DAY_START_WALK_STEP: the walk reaches the next occupied record (R50, R51). -/
def execDayStartWalkStep (s : State) : Host.Outcome State Fault Refusal :=
  match s.store.walk with
  | none => .next s
  | some start =>
    match nextOccupied s.store.records start with
    | none => .next s
    | some (r, q) =>
      let s1 := (s.setRecord r q.dayStarted).markCells q.cells
      .next { s1 with store := { s1.store with walk := some (r + 1) } }

/-- DAY_START_WALK_COMPLETION: with every occupied record reached, marks are cleared, the walk is IDLE, and what waited
goes on (R6, R53). -/
def execDayStartWalkCompletion (s : State) : Host.Outcome State Fault Refusal :=
  match s.store.walk with
  | none => .next s
  | some start =>
    match nextOccupied s.store.records start with
    | some _ => .next s
    | none =>
      .next (State.beginWorking
        { s with store := { s.store with walk := none }, desk := s.desk.clearMarks }).serveHeld

/-- Floor time one second later (R54). -/
def FloorTime.advanced (t : FloorTime) : FloorTime :=
  if t.seconds < 59 then { t with seconds := t.seconds + 1 }
  else if t.minutes < 59 then { t with minutes := t.minutes + 1, seconds := 0 }
  else if t.hours < 23 then { hours := t.hours + 1, minutes := 0, seconds := 0 }
  else { hours := 0, minutes := 0, seconds := 0 }

/-- FLOOR_TIME_ADVANCE: 1,000 ms have passed since the last setting or advance (R54). -/
def execFloorTimeAdvance (s : State) : Host.Outcome State Fault Refusal :=
  if reached s.clock s.store.secondAt then
    .next { s with store := { s.store with floor := s.store.floor.advanced, secondAt := after s.store.secondAt 1000 } }
  else .next s

/-- HOLD_EXPIRY: the unit clock has reached a record's hold deadline while its monitor is ACTIVE or RELEASING (R66). -/
def execHoldExpiry (r : Nat) (s : State) : Host.Outcome State Fault Refusal :=
  match s.record? r with
  | none => .next s
  | some q =>
    if q.monitor.moving = true ∧ due s.clock q.monitor.hold = true then
      let s1 := (s.setRecord r q.recentred).markCells q.cells
      .next { s1 with desk := s1.desk.touch r noAlert }
    else .next s

/-! ### SET MONITOR (R70) -/

/-- SET MONITOR as the unit manager deals with it (R70). -/
def dealSetMonitor (r : Nat) (settings : MonSettings) (route : Route) (s : State) : State :=
  if 512 ≤ r then s.refuse route 9 .badArgument
  else
    match s.record? r with
    | none => s.refuse route 9 .notFound
    | some q =>
      let s1 := s.setRecord r { q with monitor := { q.monitor.calmed with settings := clampSettings settings } }
      let s2 := if q.monitor.moving then s1.markCells q.cells else s1
      let s3 := if q.monitor.state = .calm then s2 else { s2 with desk := s2.desk.touch r noAlert }
      s3.answer route 9 .done (.settings (clampSettings settings))

end Sys2Proof.Machine
end

