-- ==== Sys2Proof/Machine/Manager.lean ====
section
/-! DEFINITION. The unit manager's own commands: ACK RESTART, SET PARAMETER with its clamps, CLEAR COUNTERS, and commands
that name no known command (R180, R182, R186 to R188). -/

namespace Sys2Proof.Machine

/-- ACK RESTART: a HELD unit becomes RUNNING and every assigned cell is marked; a RUNNING unit changes nothing (R182). -/
def dealAckRestart (route : Route) (s : State) : State :=
  match s.manager.state with
  | .running => s.answer route 1 .done (.unitState .running)
  | .held =>
    let s1 := { s with manager := { s.manager with state := .running } }
    s1.markAssigned.answer route 1 .done (.unitState .running)

/-! ### SET PARAMETER (R186, R187) -/

/-- The level thresholds of one level: enter and leave. -/
structure LevelPair where
  enter : Nat
  leave : Nat
  deriving DecidableEq, Repr

/-- One level's thresholds after SET PARAMETER of its enter, between the enters of its neighbours (R187). -/
def LevelPair.setEnter (l : LevelPair) (below above value : Nat) : LevelPair :=
  let enter := min above (max below (clamp 2 3600 value))
  { enter := enter, leave := if enter ≤ l.leave then enter - 1 else l.leave }

/-- One level's thresholds after SET PARAMETER of its leave (R187). -/
def LevelPair.setLeave (l : LevelPair) (value : Nat) : LevelPair :=
  let leave := clamp 1 3600 value
  { enter := l.enter, leave := if l.enter ≤ leave then l.enter - 1 else leave }

/-- The thresholds of a level; a number other than 1 or 2 names level 3. -/
def Params.level (p : Params) : Nat → LevelPair
  | 1 => ⟨p.enter1, p.leave1⟩
  | 2 => ⟨p.enter2, p.leave2⟩
  | _ => ⟨p.enter3, p.leave3⟩

/-- The thresholds of a level stored. -/
def Params.setLevel (p : Params) (k : Nat) (l : LevelPair) : Params :=
  match k with
  | 1 => { p with enter1 := l.enter, leave1 := l.leave }
  | 2 => { p with enter2 := l.enter, leave2 := l.leave }
  | _ => { p with enter3 := l.enter, leave3 := l.leave }

/-- The enter of the level below, under which an enter is raised; 0 for level 1. -/
def Params.enterBelow (p : Params) : Nat → Nat
  | 1 => 0
  | 2 => p.enter1
  | _ => p.enter2

/-- The enter of the level above, over which an enter is lowered; the top of the range for level 3. -/
def Params.enterAbove (p : Params) : Nat → Nat
  | 1 => p.enter2
  | 2 => p.enter3
  | _ => 3600

/-- A level's pair stored, with the reply that carries both of its thresholds (R187). -/
def Params.storeLevel (p : Params) (ident k : Nat) (l : LevelPair) : Option (Params × ReplyBody) :=
  some (p.setLevel k l, .levelParameter ident l.enter l.leave)

/-- SET PARAMETER of level k's enter threshold (R187). -/
def Params.storeEnter (p : Params) (ident k value : Nat) : Option (Params × ReplyBody) :=
  p.storeLevel ident k ((p.level k).setEnter (p.enterBelow k) (p.enterAbove k) value)

/-- SET PARAMETER of level k's leave threshold (R187). -/
def Params.storeLeave (p : Params) (ident k value : Nat) : Option (Params × ReplyBody) :=
  p.storeLevel ident k ((p.level k).setLeave value)

/-- A parameter stored by its identifier (R192, Table 9-3), with the body of the reply; none for an identifier that names no
parameter (R186). -/
def Params.store (p : Params) (ident value : Nat) : Option (Params × ReplyBody) :=
  match ident with
  | 1 => some ({ p with feedLossHold := clamp 1 255 value }, .parameter 1 (clamp 1 255 value))
  | 2 => some ({ p with checkFailureLimit := clamp 1 65535 value }, .parameter 2 (clamp 1 65535 value))
  | 3 => some ({ p with replyHold := clamp 5 255 value }, .parameter 3 (clamp 5 255 value))
  | 4 => some ({ p with ribbonRateA := clamp 20 600 value }, .parameter 4 (clamp 20 600 value))
  | 5 => some ({ p with ribbonRateB := clamp 20 600 value }, .parameter 5 (clamp 20 600 value))
  | 6 => some ({ p with scopeAll := decide (value ≠ 0) }, .tapeScope (decide (value ≠ 0)))
  | 7 => p.storeEnter 7 1 value
  | 8 => p.storeEnter 8 2 value
  | 9 => p.storeEnter 9 3 value
  | 10 => p.storeLeave 10 1 value
  | 11 => p.storeLeave 11 2 value
  | 12 => p.storeLeave 12 3 value
  | 13 => some ({ p with blockThreshold := clamp 2 9999 value }, .parameter 13 (clamp 2 9999 value))
  | 14 => some ({ p with blockSize := clamp 1 8 value }, .parameter 14 (clamp 1 8 value))
  | 15 => some ({ p with panelWindow := clamp 5 255 value }, .parameter 15 (clamp 5 255 value))
  | 16 => some ({ p with sweepInterval := clamp 5 600 value }, .parameter 16 (clamp 5 600 value))
  | 17 => some ({ p with requestWindow := clamp 1 255 value }, .parameter 17 (clamp 1 255 value))
  | 18 => some ({ p with answerWindow := clamp 1 255 value }, .parameter 18 (clamp 1 255 value))
  | 19 => some ({ p with deskStuck := clamp 1 255 value }, .parameter 19 (clamp 1 255 value))
  | 20 => some ({ p with moveHold := clamp 1 255 value }, .parameter 20 (clamp 1 255 value))
  | _ => none

/-- The error-limit flag after SET PARAMETER: tested at a setting of the check-failure limit alone (R168). -/
def State.limitTested (s : State) (ident : Nat) : State :=
  if ident = 2 then
    { s with feed := { s.feed with
        errorLimit := errorLimitAfter s.feed.errorLimit s.counters.checkFailures s.params.checkFailureLimit } }
  else s

/-- SET PARAMETER (R186). -/
def dealSetParameter (ident value : Nat) (route : Route) (s : State) : State :=
  match s.params.store ident value with
  | none => s.refuse route 13 .badArgument
  | some (params, body) => (State.limitTested { s with params := params } ident).answer route 13 .done body

/-! ### Counters and unknown commands -/

/-- Every station counter 0 (R188). -/
def Desk.countersCleared (d : Desk) : Desk :=
  { d with stations := d.stations.map fun st => { st with counters := StationCounters.zero } }

/-- CLEAR COUNTERS: every unit and station counter 0 and the error-limit flag clear (R188). -/
def dealClearCounters (route : Route) (s : State) : State :=
  let s1 := { s with
    counters := Counters.zero
    feed := { s.feed with errorLimit := false }
    desk := s.desk.countersCleared }
  s1.answer route 22 .done .empty

/-- A command that names no command, or whose length does not agree with it (R180). -/
def dealUnknown (number : Nat) (route : Route) (s : State) : State := s.refuse route number .badArgument

end Sys2Proof.Machine
end

