-- ==== Sys2Proof/Machine/Resets.lean ====
section
/-! DEFINITION. Power-on and the two restarts, block by block as R183 and R184 list them (R9, R21, R22, R55, R71, R97, R117,
R118, R141, R142, R161, R177, R185). -/

namespace Sys2Proof.Machine

/-! ### The repeater and intake at a restart (R177) -/

/-- FEED OUT at a restart: a reply being sent goes on, its place freed with the emptied reply queue (R169, R177). -/
def FeedOut.afterRestart : FeedOut → FeedOut
  | .reply sending unsent _ => .reply sending unsent false
  | other => other

/-- The repeater at either restart: receiving, lock, feed state, deadline and forward queue kept; the reply queue emptied;
the error-limit flag clear (R177). -/
def Repeater.restarted (f : Repeater) : Repeater :=
  { f with out := f.out.afterRestart, reserved := 0, filled := [], errorLimit := false }

/-! ### Tables at RESTART KEEP -/

/-- The quote store at RESTART KEEP: every monitor CALM with its baseline reset, a walk abandoned (R22, R55, R71). -/
def QuoteStore.keptRestart (q : QuoteStore) : QuoteStore :=
  { q with records := q.records.map fun e => (e.1, e.2.recentred), walk := none }

/-- The board refresher at RESTART KEEP (R118). -/
def Board.keptRestart (b : Board) (now : Reading) (sweepInterval : Nat) : Board :=
  { b with
    dirty := []
    block := none
    panels := List.replicate 4 Panel.fresh
    pause := .running
    sweepAt := after now (sweepInterval * 1000) }

/-- The failed-delivery run that agrees with a presence state at a restart (R141, R142). -/
def restartRun (presence : Presence) : Nat := if presence = .absent then 3 else 0

/-- A station record at RESTART KEEP (R142, R161). -/
def Station.keptRestart (now : Reading) (st : Station) : Station :=
  { st with
    watch := st.watch.map fun e => { e with pending := false }
    alerts := []
    streamDue := false
    streamAt := if st.mode = .stream ∧ st.presence ≠ .detached then some (after now (st.interval * 1000)) else none
    served := false
    failedRun := restartRun st.presence
    counters := StationCounters.zero }

/-- A station record at RESTART CLEAR: power-on's, with its presence state kept (R141). -/
def Station.clearedRestart (st : Station) : Station :=
  { Station.fresh with presence := st.presence, failedRun := restartRun st.presence }

/-- The desk line at either restart: FREE, the slot empty, the arbiter's marks as at power-on, the stuck deadline set when a
signal is held; the presence scan goes on (R136, R141, R142). -/
def Desk.restarted (d : Desk) (stuck : Reading) (stations : List Station) : Desk :=
  { d with
    stations := stations
    line := .free
    transaction := none
    answered := []
    slot := none
    stuckAt := if d.attn || d.busy then some stuck else none
    retryAt := none
    alternation := false
    lastAlert := 15
    lastRoutine := 15 }

/-! ### The resets -/

/-- RESTART KEEP's effects (R183). -/
def State.restartKeep (s : State) : State :=
  { s with
    manager := { s.manager with state := .held, cause := .keep }
    counters := Counters.zero
    feed := s.feed.restarted
    intake := { s.intake with queue := [] }
    directory := { s.directory with operation := .idle }
    store := s.store.keptRestart
    tapeA := Tape.cleared
    tapeB := Tape.cleared
    board := s.board.keptRestart s.clock s.params.sweepInterval
    desk := s.desk.restarted (after s.clock (s.params.deskStuck * 100))
      (s.desk.stations.map (Station.keptRestart s.clock)) }

/-- RESTART CLEAR's effects (R184). -/
def State.restartClear (s : State) : State :=
  { s with
    manager := { s.manager with state := .held, cause := .clear }
    params := Params.defaults
    counters := Counters.zero
    feed := s.feed.restarted
    intake := Intake.cleared
    directory := Directory.cleared
    store := QuoteStore.cleared s.clock
    tapeA := Tape.cleared
    tapeB := Tape.cleared
    board := Board.cleared s.clock
    desk := s.desk.restarted (after s.clock (Params.defaults.deskStuck * 100))
      (s.desk.stations.map Station.clearedRestart) }

/-- RESTART KEEP: its effects, then DONE in the emptied reply queue (R183). -/
def dealRestartKeep (route : Route) (s : State) : State := s.restartKeep.answer route 2 .done (.restartCause .keep)

/-- RESTART CLEAR: its effects, then DONE in the emptied reply queue (R184). -/
def dealRestartClear (route : Route) (s : State) : State := s.restartClear.answer route 3 .done (.restartCause .clear)

/-- POWER_ON: the RESET input sets every block as power-on does, with the straps read once; the unit clock and the shared
desk signals stand as they are (R178, R185; assumption 4). -/
def execPowerOn (straps : BitVec 6) (s : State) : Host.Outcome State Fault Refusal :=
  .next { State.powered s.clock straps s.desk.attn s.desk.busy with pending := s.pending }

end Sys2Proof.Machine
end

