-- ==== Sys2Proof/Machine/Commands.lean ====
section
/-! DEFINITION. The loop's commands: how the repeater passes one to the unit manager by its address (R167), ASSIGN (R179),
and one meaning for each command row of the opcode table (R180, Table 9-1). A row is a command that has arrived whole,
well-formed and LOCKED; the arrival itself is FEED_MESSAGE_RECEIVED's (assumption 5). -/

namespace Sys2Proof.Machine

/-! ### Passing a command by its address (R167) -/

/-- A command is addressed to this unit (R167, R178). -/
def State.ownAddress (s : State) (addr : Nat) : Bool :=
  decide (addr = s.manager.address) && decide (1 ≤ addr) && decide (addr ≤ 62)

/-- One added to the untaken commands counter (R167). -/
def State.countUntaken (s : State) : State :=
  { s with counters := { s.counters with untaken := bump s.counters.untaken 1 } }

/-- A command passed to the unit manager by its address: broadcast without a place; addressed to this unit with a place
reserved, or untaken with no place free; otherwise not acted on (R167). -/
def State.passCommand (s : State) (addr : Nat) (deal : Route → State → State) : State :=
  if addr = 63 then deal .broadcast s
  else if s.ownAddress addr then
    if s.feed.placeFree then deal .place s.reservePlace else s.countUntaken
  else s

/-! ### ASSIGN (R179) -/

/-- An unassigned unit takes a candidate from 1 to 62 (R179). DESIGN CHOICE: a candidate from 64 to 255, for which R179's table has
no row, is let go by unchanged like 0 and 63 (assumption 45). -/
def State.takesCandidate (s : State) (candidate : Nat) : Bool :=
  decide (s.manager.source = .unassigned) && decide (1 ≤ candidate) && decide (candidate ≤ 62)

/-- The candidate becomes the unit address, with source ASSIGNED (R179). -/
def State.takeCandidate (s : State) (candidate : Nat) : State :=
  { s with manager := { s.manager with address := candidate, source := .assigned } }

/-- The characters of an ASSIGN carrying address 0 and a candidate (R179). -/
def assignMessage (candidate : Nat) : List FeedChar := queued (commandMessage 0 (.assign candidate))

/-- Characters join the forward queue after those already arriving, and FEED OUT sends one as each comes (R165, R166). -/
def Repeater.takeCharacters (f : Repeater) : List FeedChar → Repeater
  | [] => f
  | c :: rest => Repeater.takeCharacters { f.sendCharacter with arriving := f.arriving ++ [c] } rest

/-- A whole message that joins the forward queue from outside its characters' own rows (R165; assumption 5). -/
def Repeater.takeMessage (f : Repeater) (message : List FeedChar) : Repeater :=
  let taken := f.takeCharacters message
  { taken with arriving := f.arriving, forward := taken.forward ++ [message] }

/-- The repeater with the newest message, when it is the ASSIGN taken, replaced at its place by the next candidate's (R165, R179).
Where a row is given without its message, the replacement joins the forward queue as it would have arrived (assumption 5). -/
def Repeater.replaceAssign (f : Repeater) (candidate : Nat) : Repeater :=
  if f.forward.getLast? = some (assignMessage candidate) then
    { f with forward := f.forward.dropLast ++ [assignMessage (candidate + 1)] }
  else f.takeMessage (assignMessage (candidate + 1))

/-- An ASSIGN carrying address 0: taken and replaced by an unassigned unit, or let go by (R179). -/
def State.passAssign (s : State) (candidate : Nat) : State :=
  if s.takesCandidate candidate then
    let s1 := s.takeCandidate candidate
    { s1 with feed := s1.feed.replaceAssign candidate }
  else s

/-- An ASSIGN carrying this unit's address is BAD ARGUMENT; a broadcast one is not acted on (R179). -/
def dealAssign (route : Route) (s : State) : State := s.refuse route 23 .badArgument

/-! ### The unit manager's table (Table 9-1) -/

/-- A command that has passed R180's common checks, handed to its owning rule. -/
def dealCommand (command : Command) (route : Route) (s : State) : State :=
  match command with
  | .ackRestart => dealAckRestart route s
  | .restartKeep => dealRestartKeep route s
  | .restartClear => dealRestartClear route s
  | .loadSymbol args => dealLoadSymbol args route s
  | .addAlias code record => dealAddAlias code record route s
  | .dropAlias code => dealDropAlias code route s
  | .dropSymbol code => dealDropSymbol code route s
  | .setCell panel cell record => dealSetCell panel cell record route s
  | .setMonitor record settings => dealSetMonitor record settings route s
  | .loadWatch station entries => dealLoadWatch station entries route s
  | .clearWatch station => dealClearWatch station route s
  | .setStation station mode interval => dealSetStation station mode interval route s
  | .setParameter ident value => dealSetParameter ident value route s
  | .pauseBoard => dealPauseBoard route s
  | .continueBoard => dealContinueBoard route s
  | .restorePanel panel => dealRestorePanel panel route s
  | .queryStatus part => dealQueryStatus part route s
  | .queryRecord part record => dealQueryRecord part record route s
  | .queryStation part station => dealQueryStation part station route s
  | .queryWatch part station => dealQueryWatch part station route s
  | .queryCounters part => dealQueryCounters part route s
  | .clearCounters => dealClearCounters route s
  | .assign _ => dealAssign route s

/-! ### The command rows -/

/-- ACK_RESTART (R182). -/
def execAckRestart (addr : Nat) (s : State) : Host.Outcome State Fault Refusal := .next (s.passCommand addr dealAckRestart)

/-- RESTART_KEEP (R183). -/
def execRestartKeep (addr : Nat) (s : State) : Host.Outcome State Fault Refusal :=
  .next (s.passCommand addr dealRestartKeep)

/-- RESTART_CLEAR (R184). -/
def execRestartClear (addr : Nat) (s : State) : Host.Outcome State Fault Refusal :=
  .next (s.passCommand addr dealRestartClear)

/-- LOAD_SYMBOL (R10). -/
def execLoadSymbol (addr : Nat) (args : LoadArgs) (s : State) : Host.Outcome State Fault Refusal :=
  .next (s.passCommand addr (dealLoadSymbol args))

/-- ADD_ALIAS (R13). -/
def execAddAlias (addr : Nat) (code : Code) (record : Nat) (s : State) : Host.Outcome State Fault Refusal :=
  .next (s.passCommand addr (dealAddAlias code record))

/-- DROP_ALIAS (R14). -/
def execDropAlias (addr : Nat) (code : Code) (s : State) : Host.Outcome State Fault Refusal :=
  .next (s.passCommand addr (dealDropAlias code))

/-- DROP_SYMBOL (R15). -/
def execDropSymbol (addr : Nat) (code : Code) (s : State) : Host.Outcome State Fault Refusal :=
  .next (s.passCommand addr (dealDropSymbol code))

/-- SET_CELL (R98). -/
def execSetCell (addr panel cell : Nat) (record : Option Nat) (s : State) : Host.Outcome State Fault Refusal :=
  .next (s.passCommand addr (dealSetCell panel cell record))

/-- SET_MONITOR (R70). -/
def execSetMonitor (addr record : Nat) (settings : MonSettings) (s : State) : Host.Outcome State Fault Refusal :=
  .next (s.passCommand addr (dealSetMonitor record settings))

/-- LOAD_WATCH (R151). -/
def execLoadWatch (addr station : Nat) (entries : List WatchArgs) (s : State) : Host.Outcome State Fault Refusal :=
  .next (s.passCommand addr (dealLoadWatch station entries))

/-- CLEAR_WATCH (R151). -/
def execClearWatch (addr station : Nat) (s : State) : Host.Outcome State Fault Refusal :=
  .next (s.passCommand addr (dealClearWatch station))

/-- SET_STATION (R152). -/
def execSetStation (addr station mode interval : Nat) (s : State) : Host.Outcome State Fault Refusal :=
  .next (s.passCommand addr (dealSetStation station mode interval))

/-- SET_PARAMETER (R186). -/
def execSetParameter (addr ident value : Nat) (s : State) : Host.Outcome State Fault Refusal :=
  .next (s.passCommand addr (dealSetParameter ident value))

/-- PAUSE_BOARD (R112). -/
def execPauseBoard (addr : Nat) (s : State) : Host.Outcome State Fault Refusal := .next (s.passCommand addr dealPauseBoard)

/-- CONTINUE_BOARD (R114). -/
def execContinueBoard (addr : Nat) (s : State) : Host.Outcome State Fault Refusal :=
  .next (s.passCommand addr dealContinueBoard)

/-- RESTORE_PANEL (R111). -/
def execRestorePanel (addr panel : Nat) (s : State) : Host.Outcome State Fault Refusal :=
  .next (s.passCommand addr (dealRestorePanel panel))

/-- QUERY_STATUS (R181). -/
def execQueryStatus (addr part : Nat) (s : State) : Host.Outcome State Fault Refusal :=
  .next (s.passCommand addr (dealQueryStatus part))

/-- QUERY_RECORD (R181). -/
def execQueryRecord (addr part record : Nat) (s : State) : Host.Outcome State Fault Refusal :=
  .next (s.passCommand addr (dealQueryRecord part record))

/-- QUERY_STATION (R181). -/
def execQueryStation (addr part station : Nat) (s : State) : Host.Outcome State Fault Refusal :=
  .next (s.passCommand addr (dealQueryStation part station))

/-- QUERY_WATCH (R160). -/
def execQueryWatch (addr part station : Nat) (s : State) : Host.Outcome State Fault Refusal :=
  .next (s.passCommand addr (dealQueryWatch part station))

/-- QUERY_COUNTERS (R181, R188). -/
def execQueryCounters (addr part : Nat) (s : State) : Host.Outcome State Fault Refusal :=
  .next (s.passCommand addr (dealQueryCounters part))

/-- CLEAR_COUNTERS (R188). -/
def execClearCounters (addr : Nat) (s : State) : Host.Outcome State Fault Refusal :=
  .next (s.passCommand addr dealClearCounters)

/-- ASSIGN (R179): with address 0, taken and replaced or let go by; with another, dealt with by R167. A replacement that
finds no place in the forward queue stops the machine (R165). -/
def execAssign (addr candidate : Nat) (s : State) : Host.Outcome State Fault Refusal :=
  if addr = 0 then
    if s.takesCandidate candidate = true ∧ 512 < (s.passAssign candidate).feed.forwardCount then .fault .forwardQueueFull
    else .next (s.passAssign candidate)
  else .next (s.passCommand addr dealAssign)

/-- UNKNOWN_COMMAND (R180): acts when the number names no command or the body's length does not agree with it. -/
def execUnknownCommand (addr number : Nat) (body : List Byte) (s : State) : Host.Outcome State Fault Refusal :=
  if (parseCommand number body).isNone then .next (s.passCommand addr (dealUnknown number)) else .next s

end Sys2Proof.Machine
end

