-- ==== Sys2Proof/Machine/Loop.lean ====
section
/-! DEFINITION. A message received whole: its examination by the repeater (R163, R165, R167), and intake's sequence check
and queue (R171, R172). -/

namespace Sys2Proof.Machine

/-! ### Intake (R171, R172) -/

/-- A market message counted as malformed (R171). -/
def State.countMalformed (s : State) : State :=
  { s with counters := { s.counters with malformed := bump s.counters.malformed 1 } }

/-- An accepted message: the expectation becomes its number, and it joins the queue or is dropped and counted (R171,
R172). -/
def State.acceptMessage (s : State) (sequence : Nat) (msg : MarketMsg) : State :=
  let s1 := { s with intake := { s.intake with expectation := some sequence } }
  if s.intake.queue.length < 16 then
    { s1 with intake := { s1.intake with queue := s.intake.queue ++ [{ sequence := sequence, message := msg, marked := false }] } }
  else { s1 with counters := { s.counters with overruns := bump s.counters.overruns 1 } }

/-- A gap counted, with the messages it missed (R171). -/
def State.countGap (s : State) (missed : Nat) : State :=
  { s with counters := { s.counters with
      gaps := bump s.counters.gaps 1
      missed := bump s.counters.missed missed } }

/-- A message behind the expectation or equal to it counted (R171). -/
def State.countDuplicate (s : State) : State :=
  { s with counters := { s.counters with duplicates := bump s.counters.duplicates 1 } }

/-- How far a sequence number lies past the expectation, modulo 4,096 (R171). -/
def sequenceDistance (sequence expectation : Nat) : Nat := (sequence + 4096 - expectation % 4096) % 4096

/-- The sequence check of a message whose length agrees with its kind (Table 8-2). -/
def State.checkSequence (s : State) (sequence : Nat) (msg : MarketMsg) : State :=
  match s.intake.expectation with
  | none => s.acceptMessage sequence msg
  | some expected =>
    let d := sequenceDistance sequence expected
    if d = 0 ∨ 2048 ≤ d then s.countDuplicate
    else if d = 1 then s.acceptMessage sequence msg
    else (s.countGap (d - 1)).acceptMessage sequence msg

/-- The body of a message with `addressing` characters between length and body: what stands before the check. -/
def bodyOf (addressing : Nat) (bytes : List Byte) : List Byte := (bytes.drop (2 + addressing)).dropLast

/-- The market message characters from kind to check spell; none when the length does not agree with the kind (R171). -/
def marketOf (bytes : List Byte) : Option MarketMsg :=
  if bytes.length < 5 then none else parseMarket (fieldOf bytes 0 1) (bodyOf 2 bytes)

/-- A market message handed to intake (R171): malformed where its length does not agree with its kind, and where its sequence
number is above 4,095, out of range by R191 (assumption 13). -/
def State.handToIntake (s : State) (bytes : List Byte) : State :=
  match marketOf bytes with
  | none => s.countMalformed
  | some msg => if fieldOf bytes 2 2 ≤ 4095 then s.checkSequence (fieldOf bytes 2 2) msg else s.countMalformed

/-! ### Commands (R167, R180) -/

/-- The command number a message carries; a free value for a message with no such character (assumption 12). -/
def commandNumber (bytes : List Byte) : Nat := if bytes.length < 5 then Config.missingEcho else fieldOf bytes 3 1

/-- The command a message spells; none when it names no command or its length does not agree with it (R180). -/
def commandOf (bytes : List Byte) : Option Command :=
  if bytes.length < 5 then none else parseCommand (fieldOf bytes 3 1) (bodyOf 2 bytes)

/-- A command message dealt with: R180's common checks, then its owning rule. -/
def dealMessage (bytes : List Byte) (route : Route) (s : State) : State :=
  match commandOf bytes with
  | none => dealUnknown (commandNumber bytes) route s
  | some command => dealCommand command route s

/-- A command message examined by its address (R167): an addressed one taken leaves the forward queue; every other stays
in it; an ASSIGN with address 0 is the unit manager's to take (R179). -/
def State.examineCommand (s : State) (bytes : List Byte) : State :=
  let addr := fieldOf bytes 2 1
  if addr = 0 then
    match commandOf bytes with
    | some (.assign candidate) => (s.forwardMessage bytes).passAssign candidate
    | _ => s.forwardMessage bytes
  else if s.ownAddress addr && s.feed.placeFree then s.passCommand addr (dealMessage bytes)
  else (s.forwardMessage bytes).passCommand addr (dealMessage bytes)

/-! ### The examination of a whole message (R163, R167) -/

/-- A message received whole with the right check while LOCKED, by its kind (R167). -/
def State.examine (s : State) (bytes : List Byte) : State :=
  let kind := fieldOf bytes 0 1
  if isMarketKind kind then (s.forwardMessage bytes).handToIntake bytes
  else if kind = 64 then s.examineCommand bytes
  else if kind = 65 then s.forwardMessage bytes
  else (s.forwardMessage bytes).countMalformed

/-- A wrong check character while LOCKED: forwarded, counted, and the error limit tested (R167, R168). -/
def State.countCheckFailure (s : State) : State :=
  let failures := bump s.counters.checkFailures 1
  { s with
    counters := { s.counters with checkFailures := failures }
    feed := { s.feed with errorLimit := errorLimitAfter s.feed.errorLimit failures s.params.checkFailureLimit } }

/-- The check character is right (R162). -/
def checkRight (bytes : List Byte) : Bool := decide (characterSum bytes = 0)

/-- A message received whole while LOCKED: the fault run 0, then its fate (R163, R167). -/
def State.receiveLocked (s : State) (bytes : List Byte) : State :=
  let s1 := { s with feed := { s.feed with faultRun := 0 } }
  if checkRight bytes then s1.examine bytes else (s1.forwardMessage bytes).countCheckFailure

/-- A message received whole while SEARCHING: the second well-formed one brings lock and is acted on; every other is
forwarded (R163, R164). -/
def State.receiveSearching (s : State) (bytes : List Byte) : State :=
  if checkRight bytes then
    if 1 ≤ s.feed.goodRun then s.gainLock.examine bytes
    else State.forwardMessage { s with feed := { s.feed with goodRun := s.feed.goodRun + 1 } } bytes
  else State.forwardMessage { s with feed := { s.feed with goodRun := 0 } } bytes

/-- A message received whole, by the lock state (R163). -/
def State.receiveWhole (s : State) (bytes : List Byte) : State :=
  match s.feed.lock with
  | .locked => s.receiveLocked bytes
  | .searching => s.receiveSearching bytes

/-- FEED_MESSAGE_RECEIVED: the last character its length calls for arrives, and the message's fate is decided (R165, R167,
R190). -/
def execFeedMessageReceived (last : Byte) (s : State) : Host.Outcome State Fault Refusal :=
  if s.classOf (.data last) = .completes then
    if s.feed.hasRoom 1 then
      let s1 := s.noteArrival
      .next (State.receiveWhole { s1 with feed := { s1.feed with arriving := [] } } (dataOf s.feed.arriving ++ [last]))
    else .fault .forwardQueueFull
  else .next s

end Sys2Proof.Machine
end

