-- ==== Sys2Proof/Machine/Dispatch.lean ====
section
/-! DEFINITION. The meaning of every command of the opcode table: one arm for each constructor of `Instr`, each a direct
call of its meaning. -/

namespace Sys2Proof.Machine

/-- A command's effect on the state; it leaves the queue of waiting commands as it stands. -/
def exec (i : Instr) (s : State) : Host.Outcome State Fault Refusal :=
  match i with
  | .powerOn straps => Sys2Proof.Machine.execPowerOn straps s
  | .ackRestart addr => Sys2Proof.Machine.execAckRestart addr s
  | .restartKeep addr => Sys2Proof.Machine.execRestartKeep addr s
  | .restartClear addr => Sys2Proof.Machine.execRestartClear addr s
  | .loadSymbol addr args => Sys2Proof.Machine.execLoadSymbol addr args s
  | .addAlias addr code record => Sys2Proof.Machine.execAddAlias addr code record s
  | .dropAlias addr code => Sys2Proof.Machine.execDropAlias addr code s
  | .dropSymbol addr code => Sys2Proof.Machine.execDropSymbol addr code s
  | .loadSymbolCompletion => Sys2Proof.Machine.execLoadSymbolCompletion s
  | .addAliasCompletion => Sys2Proof.Machine.execAddAliasCompletion s
  | .dropAliasCompletion => Sys2Proof.Machine.execDropAliasCompletion s
  | .dropSymbolCompletion => Sys2Proof.Machine.execDropSymbolCompletion s
  | .setCell addr panel cell record => Sys2Proof.Machine.execSetCell addr panel cell record s
  | .setMonitor addr record settings => Sys2Proof.Machine.execSetMonitor addr record settings s
  | .loadWatch addr station entries => Sys2Proof.Machine.execLoadWatch addr station entries s
  | .clearWatch addr station => Sys2Proof.Machine.execClearWatch addr station s
  | .setStation addr station mode interval => Sys2Proof.Machine.execSetStation addr station mode interval s
  | .setParameter addr ident value => Sys2Proof.Machine.execSetParameter addr ident value s
  | .pauseBoard addr => Sys2Proof.Machine.execPauseBoard addr s
  | .continueBoard addr => Sys2Proof.Machine.execContinueBoard addr s
  | .restorePanel addr panel => Sys2Proof.Machine.execRestorePanel addr panel s
  | .queryStatus addr part => Sys2Proof.Machine.execQueryStatus addr part s
  | .queryRecord addr part record => Sys2Proof.Machine.execQueryRecord addr part record s
  | .queryStation addr part station => Sys2Proof.Machine.execQueryStation addr part station s
  | .queryWatch addr part station => Sys2Proof.Machine.execQueryWatch addr part station s
  | .queryCounters addr part => Sys2Proof.Machine.execQueryCounters addr part s
  | .clearCounters addr => Sys2Proof.Machine.execClearCounters addr s
  | .assign addr candidate => Sys2Proof.Machine.execAssign addr candidate s
  | .unknownCommand addr number body => Sys2Proof.Machine.execUnknownCommand addr number body s
  | .feedMessageReceived last => Sys2Proof.Machine.execFeedMessageReceived last s
  | .framingFault arrival => Sys2Proof.Machine.execFramingFault arrival s
  | .lossOfLockOnSilence => Sys2Proof.Machine.execLossOfLockOnSilence s
  | .feedLost => Sys2Proof.Machine.execFeedLost s
  | .feedOutFree => Sys2Proof.Machine.execFeedOutFree s
  | .feedInQuiet => Sys2Proof.Machine.execFeedInQuiet s
  | .replyExpiry position => Sys2Proof.Machine.execReplyExpiry position s
  | .classifierTake => Sys2Proof.Machine.execClassifierTake s
  | .dayStartWalkStep => Sys2Proof.Machine.execDayStartWalkStep s
  | .dayStartWalkCompletion => Sys2Proof.Machine.execDayStartWalkCompletion s
  | .floorTimeAdvance => Sys2Proof.Machine.execFloorTimeAdvance s
  | .holdExpiry record => Sys2Proof.Machine.execHoldExpiry record s
  | .ribbonCompletion tape => Sys2Proof.Machine.execRibbonCompletion tape s
  | .blockAssembly => Sys2Proof.Machine.execBlockAssembly s
  | .boardAnswer panel count check => Sys2Proof.Machine.execBoardAnswer panel count check s
  | .boardAnswerGap characters => Sys2Proof.Machine.execBoardAnswerGap characters s
  | .blockDeadline => Sys2Proof.Machine.execBlockDeadline s
  | .sweepExpiry => Sys2Proof.Machine.execSweepExpiry s
  | .presenceScan reading => Sys2Proof.Machine.execPresenceScan reading s
  | .arbiterStart => Sys2Proof.Machine.execArbiterStart s
  | .slotAnswer station => Sys2Proof.Machine.execSlotAnswer station s
  | .claimRoundCompletion => Sys2Proof.Machine.execClaimRoundCompletion s
  | .answer station => Sys2Proof.Machine.execAnswer station s
  | .checkError => Sys2Proof.Machine.execCheckError s
  | .quoteRequest code => Sys2Proof.Machine.execQuoteRequest code s
  | .recent code => Sys2Proof.Machine.execRecent code s
  | .watchPage => Sys2Proof.Machine.execWatchPage s
  | .watchAdd code above below move => Sys2Proof.Machine.execWatchAdd code above below move s
  | .watchDrop code => Sys2Proof.Machine.execWatchDrop code s
  | .setMode mode interval => Sys2Proof.Machine.execSetMode mode interval s
  | .lineCompletion => Sys2Proof.Machine.execLineCompletion s
  | .endCompletion => Sys2Proof.Machine.execEndCompletion s
  | .suspendCompletion => Sys2Proof.Machine.execSuspendCompletion s
  | .receipt station => Sys2Proof.Machine.execReceipt station s
  | .ready station => Sys2Proof.Machine.execReady station s
  | .deskFrameIncomplete => Sys2Proof.Machine.execDeskFrameIncomplete s
  | .windowExpiry => Sys2Proof.Machine.execWindowExpiry s
  | .deskSignalChange attn busy => Sys2Proof.Machine.execDeskSignalChange attn busy s
  | .stuckDeadlineExpiry => Sys2Proof.Machine.execStuckDeadlineExpiry s
  | .clearSequenceCompletion => Sys2Proof.Machine.execClearSequenceCompletion s
  | .retryDeadlineExpiry => Sys2Proof.Machine.execRetryDeadlineExpiry s
  | .streamTimerExpiry station => Sys2Proof.Machine.execStreamTimerExpiry station s
  | .feedCharacterReceived arrival => Sys2Proof.Machine.execFeedCharacterReceived arrival s
  | .unknownRequestKind => Sys2Proof.Machine.execUnknownRequestKind s

end Sys2Proof.Machine
end

