-- ==== Sys2Proof/Safety.lean ====
section
/-! DEFINITION. What holds of every state the controller reaches: the laws the manual states of its tables, queues,
stations and counters, and what a reply and a completed command leave. The statements for the provers are in these
terms. -/

namespace Sys2Proof.Machine

/-! ### The directory, the records and who names them (R1, R19) -/

/-- The directory is in strictly ascending code order with no code twice (R1). -/
def Directory.ordered (d : Directory) : Prop := (d.entries.map Entry.code).Pairwise fun a b => codeLess a b = true

/-- The directory's limits: 512 PRIMARY and 64 ALIAS entries (R1). -/
def Directory.limited (d : Directory) : Prop :=
  countEntries d.entries .primary ≤ 512 ∧ countEntries d.entries .aliased ≤ 64

/-- Every record number of the table is below 512, and the numbers ascend. -/
def State.recordsTabled (s : State) : Prop := tableAscending s.store.records ∧ ∀ e ∈ s.store.records, e.1 < 512

/-- Every entry names an occupied record, and a PRIMARY entry's code is its record's code (R1, R11). -/
def State.entriesNameRecords (s : State) : Prop :=
  ∀ e ∈ s.directory.entries, ∃ q, s.record? e.record = some q ∧ (e.kind = .primary → q.code = e.code)

/-- Every occupied record is named by a PRIMARY entry (R1). -/
def State.recordsHavePrimary (s : State) : Prop :=
  ∀ e ∈ s.store.records, ∃ p ∈ s.directory.entries, p.kind = .primary ∧ p.record = e.1

/-- No two PRIMARY entries name one record (R1). -/
def Directory.primariesDistinct (d : Directory) : Prop :=
  ((d.entries.filter fun e => decide (e.kind = .primary)).map Entry.record).Nodup

/-- The cell map's keys ascend below 256, and every assigned cell names an occupied record that lists it (R19). -/
def State.cellsNameRecords (s : State) : Prop :=
  tableAscending s.board.cellMap ∧
    ∀ c ∈ s.board.cellMap, c.1 < 256 ∧ ∃ q, s.record? c.2 = some q ∧ c.1 ∈ q.cells

/-- Every cell a record lists is assigned to it, and its list is 0 to 2 distinct cells (R19, Table 1-1). -/
def State.recordsOwnCells (s : State) : Prop :=
  ∀ e ∈ s.store.records, e.2.cells.length ≤ 2 ∧ e.2.cells.Nodup ∧ ∀ c ∈ e.2.cells, tableGet s.board.cellMap c = some e.1

/-- Every watch entry names an occupied record (R19). -/
def State.entriesWatchRecords (s : State) : Prop :=
  ∀ st ∈ s.desk.stations, ∀ e ∈ st.watch, (s.record? e.record).isSome = true

/-- What an operation held in DRAINING or WORKING was accepted on still holds (the note to R4). -/
def State.operationStands (s : State) : Prop :=
  match s.directory.operation with
  | .idle => True
  | .draining work _ => holds work
  | .working work _ => holds work
where
  /-- The content checks of each directory command (R10, R13 to R15). -/
  holds : DirWork → Prop
    | .load a =>
      loadArgsSound a = true ∧ countEntries s.directory.entries .primary < 512 ∧ s.record? a.record = none ∧
        lookupCode s.directory.entries a.code = none
    | .addAlias code r =>
      wellFormedCode code = true ∧ r < 512 ∧ (s.record? r).isSome = true ∧
        countEntries s.directory.entries .aliased < 64 ∧ lookupCode s.directory.entries code = none
    | .dropAlias code => ∃ e, findEntry s.directory.entries code = some e ∧ e.kind = .aliased
    | .dropSymbol code r => ∃ e, findEntry s.directory.entries code = some e ∧ e.kind = .primary ∧ e.record = r

/-- The references law: directory, records, cells and watch entries agree (R1, R19). -/
def State.referencesAgree (s : State) : Prop :=
  s.directory.ordered ∧ s.directory.limited ∧ s.recordsTabled ∧ s.entriesNameRecords ∧ s.recordsHavePrimary ∧
    s.directory.primariesDistinct ∧ s.cellsNameRecords ∧ s.recordsOwnCells ∧ s.entriesWatchRecords ∧ s.operationStands

/-! ### Records: ring and monitor (R30, R31, R56) -/

/-- Monitor settings in their ranges (Table 3-1, R10). -/
def settingsRanged (m : MonSettings) : Prop := m.t ≤ 65535 ∧ m.h ≤ m.t - 1 ∧ 1 ≤ m.n ∧ m.n ≤ 15 ∧ m.k ≤ 7

/-- R56: how state, count, direction, deadline and baseline agree. -/
def Monitor.agrees (m : Monitor) : Prop :=
  settingsRanged m.settings ∧
    (m.state = .calm ∨ m.state = .active → m.count = 0) ∧
    (m.state = .arming ∨ m.state = .releasing → 1 ≤ m.count ∧ m.count ≤ m.settings.n - 1) ∧
    (m.direction.isSome = m.moving) ∧ (m.hold.isSome = m.moving) ∧
    (m.baseline = none → m.state = .calm)

/-- R31: a ring of at most 4 prints, no two with the same sequence number. -/
def ringSound (ring : List Print) : Prop := ring.length ≤ 4 ∧ (ring.map Print.sequence).Nodup

/-- A record's ring and monitor keep their laws (R31, R56). -/
def QuoteRecord.lawful (q : QuoteRecord) : Prop := ringSound q.ring ∧ q.monitor.agrees

/-- The settings of a LOAD SYMBOL held by the directory are stored clamped (R10). -/
def Directory.loadClamped (d : Directory) : Prop :=
  match d.operation with
  | .draining (.load a) _ => settingsRanged a.settings
  | .working (.load a) _ => settingsRanged a.settings
  | _ => True

/-- Every occupied record keeps its laws, and so will the record a held load makes. -/
def State.recordsLawful (s : State) : Prop := (∀ e ∈ s.store.records, e.2.lawful) ∧ s.directory.loadClamped

/-! ### Tapes (R73, R78, R85) -/

/-- An OMITTED notice. -/
def Item.isOmitted (i : Item) : Bool :=
  match i.kind with
  | .omitted _ => true
  | _ => false

/-- R73: how the ribbon, the queue and the notice slot agree. -/
def Tape.agrees (t : Tape) : Prop :=
  match t.ribbon with
  | .idle => t.queue = [] ∧ t.slot = none
  | .notice text _ => ∃ n, t.slot = some n ∧ text = levelText n.level
  | .item _ _ => t.slot = none

/-- R78: at most 128 items, one of them an OMITTED notice when there are 128; never two OMITTED notices, and none while the
omitted count is nonzero. -/
def Tape.placed (t : Tape) : Prop :=
  t.queue.length ≤ 128 ∧ (t.queue.filter Item.isOmitted).length ≤ 1 ∧
    (t.queue.length = 128 → (t.queue.filter Item.isOmitted).length = 1) ∧
    (t.omitted ≠ 0 → t.queue.filter Item.isOmitted = [])

/-- The ranges of Table 4-1, and no code twice in the shown-in-full set (R85). -/
def Tape.ranged (t : Tape) : Prop := t.level ≤ 3 ∧ t.omitted ≤ 999 ∧ t.shown.Nodup ∧ t.shown.length ≤ 1024

/-- A tape keeps its laws. -/
def Tape.lawful (t : Tape) : Prop := t.agrees ∧ t.placed ∧ t.ranged

/-- Both tapes keep their laws. -/
def State.tapesLawful (s : State) : Prop := s.tapeA.lawful ∧ s.tapeB.lawful

/-! ### Boards (R101, section 5.5, section 5.6) -/

/-- A panel's count: 0 to 7 while IN, 8 while OUT or PROBING (section 5.5). -/
def Panel.counted (p : Panel) : Prop :=
  match p.state with
  | .inService => p.failures ≤ 7
  | _ => p.failures = 8

/-- The pause state and the block in flight: PAUSING waits for a block, PAUSED has none (R112, R113). -/
def Board.paused (b : Board) : Prop :=
  (b.pause = .pausing → b.block.isSome = true) ∧ (b.pause = .paused → b.block = none)

/-- A block in flight went to a panel that is IN or PROBING, and the panel stays so until the outcome (R103, R108). -/
def Board.flying (b : Board) : Prop := ∀ blk, b.block = some blk → b.panelState blk.panel ≠ .out

/-- The board's laws: the dirty queue never holds a cell twice (R101), the cell map has one entry a cell, four panels with
their counts, and the pause state and the panels agree with the block in flight. -/
def Board.lawful (b : Board) : Prop :=
  b.dirty.Nodup ∧ tableAscending b.cellMap ∧ b.panels.length = 4 ∧ (∀ p ∈ b.panels, p.counted) ∧ b.paused ∧ b.flying

/-! ### Stations and the line (R119, R139, R143, R153) -/

/-- R143: a list of at most 12 entries, no record twice; at most one alert for an entry, and none without its entry. -/
def Station.listed (st : Station) : Prop :=
  st.watch.length ≤ 12 ∧ (st.watch.map WatchEntry.record).Nodup ∧ (st.alerts.map Alert.record).Nodup ∧
    ∀ a ∈ st.alerts, a.record ∈ st.watch.map WatchEntry.record

/-- A station's stream timer runs exactly in STREAM mode while ATTACHED or ABSENT, and only then may its flag be set; its
interval is 1 to 60 s (R152, R153). -/
def Station.timed (st : Station) : Prop :=
  (st.streamAt.isSome = (decide (st.mode = .stream) && decide (st.presence ≠ .detached))) ∧
    (st.streamDue = true → st.streamAt.isSome = true) ∧ 1 ≤ st.interval ∧ st.interval ≤ 60

/-- A DETACHED station holds no pending mark and no alert (R121, R122, R154, R156). -/
def Station.emptyWhenDetached (st : Station) : Prop :=
  st.presence = .detached → st.alerts = [] ∧ ∀ e ∈ st.watch, e.pending = false

/-- What a station record keeps by itself. -/
def Station.lawful (st : Station) : Prop := st.listed ∧ st.timed ∧ st.emptyWhenDetached

/-- Sixteen station records, each lawful. -/
def Desk.stationsLawful (d : Desk) : Prop := d.stations.length = 16 ∧ ∀ st ∈ d.stations, st.lawful

/-- R119: the failed-delivery run that goes with a presence state. -/
def Station.runAgrees (st : Station) : Prop :=
  match st.presence with
  | .detached => st.failedRun = 0
  | .attached => st.failedRun ≤ 2
  | .absent => st.failedRun = 3

/-- A station number names an ATTACHED station. -/
def Desk.isAttached (d : Desk) (n : Nat) : Prop := ∃ st, d.stations[n]? = some st ∧ st.presence = .attached

/-- A line state with no transaction (Table 6-2). -/
def restingLine (line : LineState) : Bool :=
  match line with
  | .free => true
  | .claim => true
  | .clearing => true
  | .stuck => true
  | _ => false

/-- A transaction is with an ATTACHED station, in a line state that has one; SUSPEND is sent only with the slot empty, and
for another station (R123, R124, R138). -/
def Desk.transactionSound (d : Desk) : Prop :=
  match d.transaction with
  | none => restingLine d.line = true
  | some t =>
    restingLine d.line = false ∧ d.isAttached t.station ∧
      ∀ causing, t.output = .suspending causing → d.slot = none ∧ causing ≠ t.station

/-- The suspended page belongs to an ATTACHED station that is neither the causing station nor in transaction, and no claim
round runs beside it (R124, R139). -/
def Desk.slotSound (d : Desk) : Prop :=
  match d.slot with
  | none => True
  | some p =>
    d.isAttached p.station ∧ p.causing ≠ p.station ∧ d.line ≠ .claim ∧ ∀ t, d.transaction = some t → t.station ≠ p.station

/-- How many lines a page may still have (R145): what is left of a fixed set, or what is left of the twelve. -/
def Page.room : Page → Nat
  | .status _ _ _ _ => 0
  | .quote _ left => left.length
  | .recent _ left => left.length
  | .watch left => left.length
  | .changes _ lines => 12 - lines
  | .alerts sent => 12 - sent

/-- No page passes its twelfth line after the header, on the line or from the slot, and no line that is being sent has a number
above 12 (R145, R155, R158). -/
def Desk.pagesBounded (d : Desk) : Prop :=
  (∀ t page, d.transaction = some t → t.page = some page → t.nextLine + page.room ≤ 13) ∧
    (∀ t line, d.transaction = some t → t.output = .line line → line.number ≤ 12) ∧
    ∀ p, d.slot = some p → p.nextLine + p.page.room ≤ 13

/-- Every station counter is a 16-bit count (0.6.5, R119). -/
def Desk.countersCounted (d : Desk) : Prop :=
  ∀ st ∈ d.stations, st.counters.windowTimeouts ≤ 65535 ∧ st.counters.checkErrors ≤ 65535 ∧ st.counters.lost ≤ 65535 ∧
    st.counters.phaseFaults ≤ 65535 ∧ st.counters.failedDeliveries ≤ 65535

/-- The laws of the line: every run agrees with its presence state, and transaction and slot are sound. -/
def Desk.lineLawful (d : Desk) : Prop :=
  (∀ st ∈ d.stations, st.runAgrees) ∧ d.transactionSound ∧ d.slotSound

/-! ### The repeater, the reply queue and intake (R163 to R172) -/

/-- A message still arriving is a flag and then data characters, fewer than its length calls for (R162, R190). -/
def Repeater.framed (f : Repeater) : Prop :=
  match f.arriving with
  | [] => True
  | first :: rest =>
    first = .flag ∧ rest ≠ [] ∧ (∀ c ∈ rest, c ≠ .flag) ∧
      ∀ kind length more, dataOf rest = kind :: length :: more →
        4 ≤ length.toNat ∧ length.toNat ≤ 64 ∧ more.length + 2 < length.toNat

/-- Lock, feed state and loss deadline agree: the feed is NORMAL while LOCKED, and a deadline is set only while SEARCHING
with the feed NORMAL (R163, R164). -/
def Repeater.lockSound (f : Repeater) : Prop :=
  (f.lock = .locked → f.feed = .normal) ∧ (f.lossAt.isSome = true → f.lock = .searching ∧ f.feed = .normal) ∧
    f.goodRun ≤ 2 ∧ f.faultRun ≤ 3 ∧ (f.lock = .searching → f.goodRun ≤ 1) ∧ (f.lock = .locked → f.faultRun ≤ 2)

/-- The characters that go out before any leaves the forward queue: what is unsent of an idle flag or of a reply (R166). -/
def Repeater.ahead (f : Repeater) : Nat :=
  match f.out with
  | .message => 0
  | _ => f.unsent.length

/-- The bound of R165, with what keeps it: the forward queue, a held flag that may yet join it, and the characters that go out
ahead of it are never more than 320; a message being sent is in the queue, none of those waiting there is empty, and a filled
reply is 63 characters at most, its flag and no more than 62 from kind to check (Table 10-4). The crystal's share is less than one
character, and 0 while arrivals time FEED OUT (R166). -/
def Repeater.bounded (f : Repeater) : Prop :=
  f.forwardCount + (if f.heldFlag then 1 else 0) + f.ahead ≤ 320 ∧
    (f.out = .message → f.forward ≠ []) ∧ (∀ m ∈ f.afterSending, m ≠ []) ∧
    (∀ held ∈ f.filled, held.reply.characters.length ≤ 63) ∧
    f.crystalShare < 55 ∧ (f.timing = .arrivals → f.crystalShare = 0)

/-- The repeater's laws: framing, lock, and a forward queue that never holds more than 320 characters (R165). -/
def Repeater.lawful (f : Repeater) : Prop := f.framed ∧ f.lockSound ∧ f.bounded

/-- The places a directory operation holds: one for an addressed command's, none for a broadcast's (R5). -/
def DirOperation.placesHeld : DirOperation → Nat
  | .idle => 0
  | .draining _ held => if held then 1 else 0
  | .working _ held => if held then 1 else 0

/-- The reply queue: between commands the reserved places are those a directory operation holds, and no more than four
places are reserved, filled or being sent (R5, R169). -/
def State.placesSound (s : State) : Prop :=
  s.feed.reserved = s.directory.operation.placesHeld ∧ s.feed.occupied ≤ 4

/-- Intake: at most 16 messages (R172), an expectation and sequence numbers from 0 to 4,095, and messages marked only while
the directory is DRAINING (R6). -/
def State.intakeSound (s : State) : Prop :=
  s.intake.queue.length ≤ 16 ∧ (∀ e, s.intake.expectation = some e → e ≤ 4095) ∧
    (∀ m ∈ s.intake.queue, m.sequence ≤ 4095) ∧ (s.intake.holdsMarked = true → s.directory.isDraining = true)

/-! ### Parameters (Table 9-3, R187) -/

/-- The six level thresholds stand in order (R187). -/
def Params.ordered (p : Params) : Prop :=
  2 ≤ p.enter1 ∧ p.enter1 ≤ p.enter2 ∧ p.enter2 ≤ p.enter3 ∧ p.enter3 ≤ 3600 ∧
    1 ≤ p.leave1 ∧ p.leave1 < p.enter1 ∧ 1 ≤ p.leave2 ∧ p.leave2 < p.enter2 ∧ 1 ≤ p.leave3 ∧ p.leave3 < p.enter3

/-- Every parameter in its range (Table 9-3). -/
def Params.ranged (p : Params) : Prop :=
  (1 ≤ p.feedLossHold ∧ p.feedLossHold ≤ 255) ∧ (1 ≤ p.checkFailureLimit ∧ p.checkFailureLimit ≤ 65535) ∧
    (5 ≤ p.replyHold ∧ p.replyHold ≤ 255) ∧ (20 ≤ p.ribbonRateA ∧ p.ribbonRateA ≤ 600) ∧
    (20 ≤ p.ribbonRateB ∧ p.ribbonRateB ≤ 600) ∧ (2 ≤ p.blockThreshold ∧ p.blockThreshold ≤ 9999) ∧
    (1 ≤ p.blockSize ∧ p.blockSize ≤ 8) ∧ (5 ≤ p.panelWindow ∧ p.panelWindow ≤ 255) ∧
    (5 ≤ p.sweepInterval ∧ p.sweepInterval ≤ 600) ∧ (1 ≤ p.requestWindow ∧ p.requestWindow ≤ 255) ∧
    (1 ≤ p.answerWindow ∧ p.answerWindow ≤ 255) ∧ (1 ≤ p.deskStuck ∧ p.deskStuck ≤ 255) ∧
    (1 ≤ p.moveHold ∧ p.moveHold ≤ 255)

/-- Every unit counter is a 16-bit count (0.6.5). -/
def Counters.counted (c : Counters) : Prop :=
  c.framingFaults ≤ 65535 ∧ c.lockLosses ≤ 65535 ∧ c.feedLosses ≤ 65535 ∧ c.checkFailures ≤ 65535 ∧ c.untaken ≤ 65535 ∧
    c.expiredReplies ≤ 65535 ∧ c.malformed ≤ 65535 ∧ c.duplicates ≤ 65535 ∧ c.gaps ≤ 65535 ∧ c.missed ≤ 65535 ∧
    c.overruns ≤ 65535 ∧ c.heldDiscards ≤ 65535 ∧ c.offGrid ≤ 65535 ∧ c.omissionsA ≤ 65535 ∧ c.omissionsB ≤ 65535 ∧
    c.boardFailures ≤ 65535

/-- The row of the opcode table that carries a command with a unit address (Table 9-1, R190). -/
def commandRow (addr : Nat) : Command → Instr
  | .ackRestart => .ackRestart addr
  | .restartKeep => .restartKeep addr
  | .restartClear => .restartClear addr
  | .loadSymbol args => .loadSymbol addr args
  | .addAlias code record => .addAlias addr code record
  | .dropAlias code => .dropAlias addr code
  | .dropSymbol code => .dropSymbol addr code
  | .setCell panel cell record => .setCell addr panel cell record
  | .setMonitor record settings => .setMonitor addr record settings
  | .loadWatch station entries => .loadWatch addr station entries
  | .clearWatch station => .clearWatch addr station
  | .setStation station mode interval => .setStation addr station mode interval
  | .setParameter ident value => .setParameter addr ident value
  | .pauseBoard => .pauseBoard addr
  | .continueBoard => .continueBoard addr
  | .restorePanel panel => .restorePanel addr panel
  | .queryStatus part => .queryStatus addr part
  | .queryRecord part record => .queryRecord addr part record
  | .queryStation part station => .queryStation addr part station
  | .queryWatch part station => .queryWatch addr part station
  | .queryCounters part => .queryCounters addr part
  | .clearCounters => .clearCounters addr
  | .assign candidate => .assign addr candidate

/-! ### What a command taken leaves in the reply queue (R169, R180) -/

/-- A reply of this unit with its hold beginning now (R169, R170). -/
def State.replyOf (s : State) (echo : Nat) (status : Status) (body : ReplyBody) : FilledReply where
  reply := { address := s.manager.address, echo := echo, status := status, body := body }
  expiresAt := after s.clock (s.params.replyHold * 10)

/-- The state with one more filled reply at the end of the reply queue, and nothing else changed. -/
def State.replied (s : State) (echo : Nat) (status : Status) (body : ReplyBody) : State :=
  { s with feed := { s.feed with filled := s.feed.filled ++ [s.replyOf echo status body] } }

/-- A command with this unit's address finds a reply place free, so it is taken (R167). -/
def State.takes (s : State) (addr : Nat) : Prop :=
  addr = s.manager.address ∧ 1 ≤ addr ∧ addr ≤ 62 ∧ s.feed.occupied < 4

/-- A command's row ends in a state that the command makes: with its reply placed for a command of this unit that is taken,
and with none for a broadcast, unit address 63 (R167, R180). -/
def State.answersAs (s : State) (row : Nat → Instr) (echo : Nat) (status : Status) (body : ReplyBody) (u : State) : Prop :=
  (∀ addr, s.takes addr → exec (row addr) s = .next (u.replied echo status body)) ∧ exec (row 63) s = .next u

/-- A directory operation's completion as the directory and the reply queue show it: IDLE, and DONE in the held place (R5,
R7). -/
def State.operationDone (s : State) (held : Bool) (echo : Nat) (body : ReplyBody) : State :=
  { s with
    directory := { s.directory with operation := .idle }
    feed :=
      if held then
        { s.feed with reserved := s.feed.reserved - 1, filled := s.feed.filled ++ [s.replyOf echo .done body] }
      else s.feed }

/-- No desk request is held for a lookup (R128). -/
def State.noRequestHeld (s : State) : Prop := ∀ t, s.desk.transaction = some t → t.held = none

/-- The checks of a directory command pass, and this is the work it asks for (R10, R13 to R15). -/
def State.accepts (s : State) : Command → DirWork → Prop
  | .loadSymbol a, .load b =>
    loadArgsSound a = true ∧ countEntries s.directory.entries .primary < 512 ∧ s.record? a.record = none ∧
      lookupCode s.directory.entries a.code = none ∧ b = { a with settings := clampSettings a.settings }
  | .addAlias code r, .addAlias code' r' =>
    wellFormedCode code = true ∧ r < 512 ∧ s.record? r ≠ none ∧ countEntries s.directory.entries .aliased < 64 ∧
      lookupCode s.directory.entries code = none ∧ code' = code ∧ r' = r
  | .dropAlias code, .dropAlias code' =>
    wellFormedCode code = true ∧ (∃ e, findEntry s.directory.entries code = some e ∧ e.kind = .aliased) ∧ code' = code
  | .dropSymbol code, .dropSymbol code' r =>
    wellFormedCode code = true ∧
      (∃ e, findEntry s.directory.entries code = some e ∧ e.kind = .primary ∧ r = e.record) ∧ code' = code
  | _, _ => False

/-- One of the four directory commands (section 1.2). -/
def isDirectoryCommand : Command → Bool
  | .loadSymbol _ => true
  | .addAlias _ _ => true
  | .dropAlias _ => true
  | .dropSymbol _ => true
  | _ => false

/-- What both restarts leave before the DONE of an addressed one is placed: the unit HELD, every counter 0, the reply queue
empty, the tapes empty, and everything of the repeater's receiving and forwarding kept (R97, R177). -/
def restartLeaves (s t : State) (cause : RestartCause) : Prop :=
  t.clock = s.clock ∧ t.pending = s.pending ∧
    t.manager = { s.manager with state := .held, cause := cause } ∧ t.counters = Counters.zero ∧
    t.feed = { s.feed with out := t.feed.out, reserved := 0, errorLimit := false, filled := [] } ∧
    (∀ reply unsent place, s.feed.out = .reply reply unsent place → t.feed.out = .reply reply unsent false) ∧
    ((∀ reply unsent place, s.feed.out ≠ .reply reply unsent place) → t.feed.out = s.feed.out) ∧
    t.intake.queue = [] ∧ t.directory.operation = .idle ∧ t.store.walk = none ∧
    t.tapeA = State.reset.tapeA ∧ t.tapeB = State.reset.tapeB ∧
    t.board.dirty = [] ∧ t.board.block = none ∧ t.board.panels = State.reset.board.panels ∧ t.board.pause = .running ∧
    t.desk.line = .free ∧ t.desk.transaction = none ∧ t.desk.slot = none ∧ t.desk.retryAt = none ∧
    t.desk.alternation = false ∧ t.desk.lastAlert = 15 ∧ t.desk.lastRoutine = 15 ∧
    t.desk.attn = s.desk.attn ∧ t.desk.busy = s.desk.busy ∧
    t.desk.scanAt = s.desk.scanAt ∧ t.desk.scanPrevious = s.desk.scanPrevious ∧
    (s.desk.attn = false → s.desk.busy = false → t.desk.stuckAt = none)

/-! ### Table 7-4 -/

/-- Table 7-4: a station after its mode and interval are stored (R152). Into STREAM the timer runs from now and the flag is set,
but not for a DETACHED station; from STREAM to STREAM a timer that runs starts anew; out of STREAM both are gone; otherwise
neither moves. -/
def Station.modeStored (now : Reading) (mode : StationMode) (seconds : Nat) (st st' : Station) : Prop :=
  st' = { st with mode := mode, interval := seconds, streamAt := st'.streamAt, streamDue := st'.streamDue } ∧
    (st.mode ≠ .stream → mode = .stream → st.presence ≠ .detached →
      st'.streamAt = some (after now (seconds * 1000)) ∧ st'.streamDue = true) ∧
    (st.mode ≠ .stream → mode = .stream → st.presence = .detached →
      st'.streamAt = st.streamAt ∧ st'.streamDue = st.streamDue) ∧
    (st.mode = .stream → mode = .stream → st'.streamDue = st.streamDue ∧
      st'.streamAt = st.streamAt.map fun _ => after now (seconds * 1000)) ∧
    (st.mode = .stream → mode ≠ .stream → st'.streamAt = none ∧ st'.streamDue = false) ∧
    (st.mode ≠ .stream → mode ≠ .stream → st'.streamAt = st.streamAt ∧ st'.streamDue = st.streamDue)

/-! ### What FEED IN, the classifier and the desk line show, in the terms of the statements -/

/-- A character completes the message in progress, and the forward queue has a place for it (R162, R165): `front` are the
characters from kind on that stand there. -/
def State.completedBy (s : State) (front : List Byte) : Prop :=
  s.feed.arriving = queued front ∧ s.feed.forwardCount < 512 ∧
    ∃ kind length more, front = kind :: length :: more ∧ more.length + 3 = length.toNat

/-- The state with an arrival noted and no message in progress: what a whole message is examined in (R163, R166). -/
def State.arrived (s : State) : State :=
  { s with feed := { s.noteArrival.feed with arriving := [] } }

/-- The state with a whole message in the forward queue (R165). -/
def State.forwarded (s : State) (bytes : List Byte) : State :=
  { s.arrived with feed := { s.arrived.feed with forward := s.arrived.feed.forward ++ [queued bytes] } }

/-- The classifier of a RUNNING unit takes this message next, and no directory operation or walk is held (R173, R174). -/
def State.classifies (s : State) (m : IntakeMessage) (rest : List IntakeMessage) : Prop :=
  s.manager.state = .running ∧ s.intake.queue = m :: rest ∧ s.directory.operation = .idle ∧ s.store.walk = none

/-- A code is found in the directory and names an occupied record (R3, R19). -/
def State.finds (s : State) (code : Code) (r : Nat) (q : QuoteRecord) : Prop :=
  lookupCode s.directory.entries code = some r ∧ s.record? r = some q

/-- The transaction is over and the line has become FREE (R123, R136): with neither signal held the stuck deadline is
cleared; with one held, a deadline that the unit clock has reached is taken at once, the line CLEARING, and any other is kept,
or set where none was. -/
def State.lineFreed (s : State) : State :=
  let freed := { s.desk with line := .free, transaction := none, answered := [] }
  if s.desk.attn = false ∧ s.desk.busy = false then { s with desk := { freed with stuckAt := none } }
  else if due s.clock s.desk.stuckAt = true then
    { s with desk := { freed with line := .clearing, stuckAt := none, retryAt := none } }
  else { s with desk := { freed with
      stuckAt := some (s.desk.stuckAt.getD (after s.clock (s.params.deskStuck * 100))) } }

/-- One station record replaced. -/
def State.withStation (s : State) (n : Nat) (st : Station) : State :=
  { s with desk := { s.desk with stations := s.desk.stations.set n st } }

/-- A transaction in REQUEST that awaits its request frame (R128). -/
def State.awaitsRequest (s : State) (u : Transaction) : Prop :=
  s.desk.transaction = some u ∧ s.desk.line = .request ∧ u.held = none

/-- A reply page has begun: REPLY, no window, the page's fixed set taken, its header on the line, line 1 next (R128, R129,
R145). -/
def State.replyPage (s : State) (u : Transaction) (page : Page) : State :=
  let header : Line := { number := 0, stale := decide (s.feed.feed = .lost), fields := s.headerFields page, source := .header }
  let begun : Transaction :=
    { u with page := some (s.openPage u.station page), nextLine := 1, output := .line header, window := none, held := none }
  { s with desk := { s.desk with line := .reply, transaction := some begun } }

/-- The first station in round order after `last` of which a test holds (R124): `distance` steps on, with no nearer one. -/
def firstRound (stations : List Station) (last : Nat) (test : Nat → Station → Prop) (n : Nat) : Prop :=
  ∃ distance, distance < 16 ∧ n = (last + 1 + distance) % 16 ∧ (∃ st, stations[n]? = some st ∧ test n st) ∧
    ∀ nearer, nearer < distance → ∀ st, stations[(last + 1 + nearer) % 16]? = some st → ¬ test ((last + 1 + nearer) % 16) st

/-- An ATTACHED station with an alert queued (R124 item 2). -/
def Station.alerting (st : Station) : Prop := st.presence = .attached ∧ st.alerts ≠ []

/-- An ATTACHED station due for a routine delivery (R124 item 4). -/
def Station.isDue (st : Station) : Prop :=
  st.presence = .attached ∧
    ((st.mode = .stream ∧ st.streamDue = true) ∨ (st.mode = .event ∧ ∃ e ∈ st.watch, e.pending = true))

end Sys2Proof.Machine
end

