-- ==== Sys2Proof/Certificates/Slice0/Obligations.lean ====
section
/-! DEFINITION. The statements for the provers: what the numbered rules of the manual say the controller's commands do, and
the laws every step keeps. -/

section
open Sys2Proof Sys2Proof.Machine

/-! ### The step and its queue -/

/-- A step takes the command at the front of the queue and runs it with the queue's rest. With none waiting a millisecond
passes: the unit clock counts it (0.6.4); with FEED IN quiet, as it is through a millisecond in which no character came, FEED OUT
is timed by the crystal and sends the characters whose time has passed, 288 fifty-fifths of a character a millisecond, and timed by
arrivals it sends nothing (R166, section 10.1); a flag held for 250 ms is dropped (R190). That an empty queue is a millisecond, and
how the crystal's characters are counted in it, is the model's choice (assumptions 2 and 31). -/
def Obligations.StepRunsFrontCommand : Prop :=
  (∀ (c : Instr) (rest : List Instr) (s : State),
     step { s with pending := c :: rest } = exec c { s with pending := rest }) ∧
  (∀ (s : State), s.pending = [] →
     let passed := s.feed.crystalShare + 288
     let held := s.feed.heldFlag && decide ((s.clock + 1#32 - s.feed.lastArrival).toNat < 250)
     (s.feed.timing = .crystal ∨ s.feed.lastArrival ≠ s.clock → step s = .next
       { s with
         clock := s.clock + 1#32
         feed := { ({ s.feed with timing := .crystal } : Repeater).sendCharacters (passed / 55) with
           crystalShare := passed % 55, heldFlag := held } }) ∧
     (s.feed.timing = .arrivals → s.feed.lastArrival = s.clock → step s = .next
       { s with clock := s.clock + 1#32, feed := { s.feed with heldFlag := held } }))

/-- The one stop of the machine is a forward queue with no place for what joins it: no command is ever refused, a command
faults only with more than 505 of the 512 places of R165 taken, and every command completes with the queue within the 320
characters that R165 gives as its bound. The stop forwardQueueFull is the model's choice, since R165 gives a full queue no effect
(assumption 9), and so is the bound of 505: it is 512 less the seven characters that join where an ASSIGN row is given without
its message (assumption 5). -/
def Obligations.OnlyFullForwardQueueStops : Prop :=
  ∀ (c : Instr) (s : State),
    (∀ r, exec c s ≠ .refused r) ∧ (∀ f, exec c s = .fault f → f = .forwardQueueFull ∧ 505 < s.feed.forwardCount) ∧
      (s.feed.forwardCount ≤ 320 → ∃ t, exec c s = .next t)

/-! ### Power-on and the restarts -/

/-- The state after reset: what the manual gives for power-on, block by block (R21, R55, R96, R116, R141, R161, R176, R185).
The clock reading, the straps and the two desk signals there are the model's choice (assumption 1) and are not stated. -/
def Obligations.ResetHoldsPowerOnValues : Prop :=
  State.reset.manager.state = .held ∧ State.reset.manager.cause = .power ∧ State.reset.params = Params.defaults ∧
    State.reset.counters = Counters.zero ∧
    State.reset.directory = { entries := [], operation := .idle } ∧
    State.reset.store.records = [] ∧ State.reset.store.session = .closed ∧ State.reset.store.floor = ⟨0, 0, 0⟩ ∧
    State.reset.store.walk = none ∧
    State.reset.tapeA = { queue := [], ribbon := .idle, level := 0, slot := none, shown := [], omitted := 0 } ∧
    State.reset.tapeB = { queue := [], ribbon := .idle, level := 0, slot := none, shown := [], omitted := 0 } ∧
    State.reset.board.cellMap = [] ∧ State.reset.board.dirty = [] ∧ State.reset.board.block = none ∧
    State.reset.board.panels = List.replicate 4 { state := .inService, failures := 0 } ∧
    State.reset.board.pause = .running ∧
    State.reset.desk.stations = List.replicate 16
      { presence := .detached, mode := .event, interval := 10, watch := [], alerts := [], streamDue := false,
        streamAt := none, served := false, failedRun := 0, counters := ⟨0, 0, 0, 0, 0⟩ } ∧
    State.reset.desk.line = .free ∧ State.reset.desk.transaction = none ∧ State.reset.desk.slot = none ∧
    State.reset.desk.retryAt = none ∧ State.reset.desk.alternation = false ∧
    State.reset.desk.lastAlert = 15 ∧ State.reset.desk.lastRoutine = 15 ∧ State.reset.desk.scanPrevious = 0 ∧
    State.reset.feed.lock = .searching ∧ State.reset.feed.goodRun = 0 ∧ State.reset.feed.faultRun = 0 ∧
    State.reset.feed.feed = .normal ∧ State.reset.feed.forward = [] ∧ State.reset.feed.reserved = 0 ∧
    State.reset.feed.filled = [] ∧ (∃ unsent, State.reset.feed.out = .idleFlag unsent) ∧ State.reset.feed.timing = .crystal ∧
    State.reset.feed.errorLimit = false ∧ State.reset.intake = { expectation := none, queue := [] } ∧
    State.reset.unitAttention = true ∧ State.reset.pending = []

/-- POWER_ON makes the state after reset with the straps read, whatever the state before: a strap value of 1 to 62 is the
unit address, 0 and 63 leave the unit unassigned (R178); deadlines are measured from the reset (R116, R141, R176); the clock
and the desk signals stand (assumption 4), and a held signal sets the stuck deadline at once (R136, R141). That no flag is held
at the receiver after it is the model's choice (assumption 1). -/
def Obligations.PowerOnResetsEveryBlock : Prop :=
  ∀ (straps : BitVec 6) (s : State), ∃ t, exec (.powerOn straps) s = .next t ∧
    t.clock = s.clock ∧ t.pending = s.pending ∧
    (1 ≤ straps.toNat → straps.toNat ≤ 62 → t.manager.address = straps.toNat ∧ t.manager.source = .straps) ∧
    (straps.toNat = 0 ∨ straps.toNat = 63 → t.manager.address = 0 ∧ t.manager.source = .unassigned) ∧
    t.manager.state = .held ∧ t.manager.cause = .power ∧ t.params = Params.defaults ∧ t.counters = Counters.zero ∧
    t.directory = State.reset.directory ∧ t.intake = State.reset.intake ∧
    t.tapeA = State.reset.tapeA ∧ t.tapeB = State.reset.tapeB ∧
    t.store = { State.reset.store with secondAt := s.clock + 1000#32 } ∧
    t.board = { State.reset.board with sweepAt := s.clock + 60000#32 } ∧
    t.feed = { State.reset.feed with lossAt := some (s.clock + 2000#32), lastArrival := s.clock } ∧
    t.desk = { State.reset.desk with
      attn := s.desk.attn
      busy := s.desk.busy
      scanAt := s.clock + 100#32
      stuckAt := if s.desk.attn || s.desk.busy then some (s.clock + 1000#32) else none }

/-- RESTART KEEP (R183), addressed and broadcast: what both restarts leave, and the tables, the parameters, the expectation,
session and floor time kept. Every occupied record keeps every field but its monitor, which is CALM with its baseline on last,
or on previous close (R22, R71). Every station keeps its presence, list, mode and interval and loses its marks, alerts and
counts (R142, R161). A reply being sent holds no place after it (assumption 19). -/
def Obligations.RestartKeepKeepsTables : Prop :=
  ∀ (s : State), ∃ t, s.answersAs Instr.restartKeep 2 .done (.restartCause .keep) t ∧
    restartLeaves s t .keep ∧ t.params = s.params ∧ t.intake.expectation = s.intake.expectation ∧
    t.directory.entries = s.directory.entries ∧ t.board.cellMap = s.board.cellMap ∧
    t.board.sweepAt = after s.clock (s.params.sweepInterval * 1000) ∧
    t.store.session = s.store.session ∧ t.store.floor = s.store.floor ∧ t.store.secondAt = s.store.secondAt ∧
    (s.desk.attn = true ∨ s.desk.busy = true → t.desk.stuckAt = some (after s.clock (s.params.deskStuck * 100))) ∧
    (∀ r, s.record? r = none → t.record? r = none) ∧
    (∀ r q, s.record? r = some q → t.record? r = some { q with monitor := { q.monitor with
      state := .calm
      count := 0
      direction := none
      hold := none
      baseline :=
        match q.last, q.prevClose with
        | some (last, _), _ => some (last * 256)
        | none, some close => some (close * 256)
        | none, none => q.monitor.baseline } }) ∧
    t.desk.stations.length = s.desk.stations.length ∧
    (∀ (n : Nat) (st : Station), s.desk.stations[n]? = some st → t.desk.stations[n]? = some { st with
      watch := st.watch.map fun e => { e with pending := false }
      alerts := []
      streamDue := false
      streamAt :=
        if st.mode = .stream ∧ st.presence ≠ .detached then some (after s.clock (st.interval * 1000)) else none
      served := false
      failedRun := if st.presence = .absent then 3 else 0
      counters := ⟨0, 0, 0, 0, 0⟩ })

/-- RESTART CLEAR (R184), addressed and broadcast: what both restarts leave, with every table empty and every parameter at its
default. Every station keeps its presence state and nothing else (R141). A reply being sent holds no place after it
(assumption 19). -/
def Obligations.RestartClearEmptiesTables : Prop :=
  ∀ (s : State), ∃ t, s.answersAs Instr.restartClear 3 .done (.restartCause .clear) t ∧
    restartLeaves s t .clear ∧ t.params = Params.defaults ∧ t.intake.expectation = none ∧
    t.directory.entries = [] ∧ t.store.records = [] ∧ t.board.cellMap = [] ∧
    t.board.sweepAt = s.clock + 60000#32 ∧ t.store.session = .closed ∧ t.store.floor = ⟨0, 0, 0⟩ ∧
    t.store.secondAt = s.clock + 1000#32 ∧
    (s.desk.attn = true ∨ s.desk.busy = true → t.desk.stuckAt = some (s.clock + 1000#32)) ∧
    t.desk.stations.length = s.desk.stations.length ∧
    (∀ (n : Nat) (st : Station), s.desk.stations[n]? = some st → t.desk.stations[n]? = some
      { presence := st.presence, mode := .event, interval := 10, watch := [], alerts := [], streamDue := false,
        streamAt := none, served := false, failedRun := if st.presence = .absent then 3 else 0,
        counters := ⟨0, 0, 0, 0, 0⟩ })

/-- ACK RESTART (R182): a HELD unit becomes RUNNING and every assigned cell is marked dirty (R102); a RUNNING unit changes
nothing; DONE carries the unit state. CLEAR COUNTERS (R188): every unit and station counter 0, the error-limit flag clear,
nothing else changed. A command that names no command, or whose length does not agree with it, is BAD ARGUMENT with no
effect (R180). Each holds addressed and broadcast. -/
def Obligations.ManagerCommandsAct : Prop :=
  (∀ (s : State),
     (s.manager.state = .held → s.answersAs Instr.ackRestart 1 .done (.unitState .running)
       { s with
         manager := { s.manager with state := .running }
         board := { s.board with dirty := markCells s.board.dirty (s.board.cellMap.map Prod.fst) } }) ∧
     (s.manager.state = .running → s.answersAs Instr.ackRestart 1 .done (.unitState .running) s)) ∧
  (∀ (number : Nat) (body : List Byte) (s : State),
     s.answersAs Instr.clearCounters 22 .done .empty
       { s with
         counters := ⟨0, 0, 0, 0, 0, 0, 0, 0, 0, 0, 0, 0, 0, 0, 0, 0⟩
         feed := { s.feed with errorLimit := false }
         desk := { s.desk with stations := s.desk.stations.map fun st => { st with counters := ⟨0, 0, 0, 0, 0⟩ } } } ∧
     (number = 0 ∨ 23 < number ∨ parseCommand number body = none →
       s.answersAs (fun addr => Instr.unknownCommand addr number body) number .badArgument .empty s))

/-! ### Commands by their address, and directory commands -/

/-- R167's table for every command row: a command that is neither broadcast nor this unit's is not acted on (an ASSIGN
with address 0 apart, R179); one of this unit's that finds no reply place free is untaken, counted, and not acted on. A
row stands for a command that has arrived whole while LOCKED (assumption 5). -/
def Obligations.CommandsAreTakenByAddress : Prop :=
  ∀ (addr : Nat) (c : Command) (s : State),
    (addr ≠ 63 → (addr ≠ s.manager.address ∨ addr = 0 ∨ 62 < addr) → (addr = 0 → ∀ n, c ≠ .assign n) →
      exec (commandRow addr c) s = .next s) ∧
    (addr = s.manager.address → 1 ≤ addr → addr ≤ 62 → 4 ≤ s.feed.occupied →
      exec (commandRow addr c) s = .next
        { s with counters := { s.counters with untaken := min 65535 (s.counters.untaken + 1) } })

/-- A directory command whose checks pass (R10, R13 to R15) is accepted: its place stays held, the messages standing in the
intake queue are marked, and the directory is DRAINING, or WORKING at once when none stands (R4 to R6). A broadcast one holds
no place. -/
def Obligations.DirectoryCommandIsAccepted : Prop :=
  ∀ (addr : Nat) (c : Command) (work : DirWork) (s : State), s.accepts c work →
    s.directory.operation = .idle → s.store.walk = none →
    (s.takes addr → exec (commandRow addr c) s = .next
      { s with
        feed := { s.feed with reserved := s.feed.reserved + 1 }
        intake := { s.intake with queue := s.intake.queue.map fun m => { m with marked := true } }
        directory := { s.directory with operation :=
          if s.intake.queue = [] then .working work true else .draining work true } }) ∧
    exec (commandRow 63 c) s = .next
      { s with
        intake := { s.intake with queue := s.intake.queue.map fun m => { m with marked := true } }
        directory := { s.directory with operation :=
          if s.intake.queue = [] then .working work false else .draining work false } }

/-- A directory command that comes while an operation is held or a walk is in flight is answered BUSY, and a broadcast one leaves
no trace (R4); the other refusals of ADD ALIAS, DROP ALIAS and DROP SYMBOL come in the order of R13 to R15. -/
def Obligations.DirectoryCommandsAreRefused : Prop :=
  (∀ (addr : Nat) (c : Command) (s : State), isDirectoryCommand c = true →
     (s.directory.operation ≠ .idle ∨ s.store.walk ≠ none) →
     (s.takes addr → exec (commandRow addr c) s = .next (s.replied c.number .busy .empty)) ∧
     exec (commandRow 63 c) s = .next s) ∧
  (∀ (addr : Nat) (code : Code) (record : Nat) (s : State), s.takes addr → s.directory.operation = .idle →
     s.store.walk = none →
     (wellFormedCode code = false ∨ 512 ≤ record →
       exec (.addAlias addr code record) s = .next (s.replied 5 .badArgument .empty)) ∧
     (wellFormedCode code = true → record < 512 → s.record? record = none →
       exec (.addAlias addr code record) s = .next (s.replied 5 .notFound .empty)) ∧
     (wellFormedCode code = true → record < 512 → s.record? record ≠ none →
       64 ≤ countEntries s.directory.entries .aliased →
       exec (.addAlias addr code record) s = .next (s.replied 5 .noRoom .empty)) ∧
     (wellFormedCode code = true → record < 512 → s.record? record ≠ none →
       countEntries s.directory.entries .aliased < 64 → lookupCode s.directory.entries code ≠ none →
       exec (.addAlias addr code record) s = .next (s.replied 5 .exists_ .empty)) ∧
     (wellFormedCode code = false →
       exec (.dropAlias addr code) s = .next (s.replied 6 .badArgument .empty) ∧
       exec (.dropSymbol addr code) s = .next (s.replied 7 .badArgument .empty)) ∧
     (wellFormedCode code = true → (∀ e, findEntry s.directory.entries code = some e → e.kind = .primary) →
       exec (.dropAlias addr code) s = .next (s.replied 6 .notFound .empty)) ∧
     (wellFormedCode code = true → (∀ e, findEntry s.directory.entries code = some e → e.kind = .aliased) →
       exec (.dropSymbol addr code) s = .next (s.replied 7 .notFound .empty)))

/-- R10's checks of LOAD SYMBOL in their order, and its clamps: T as given, H at most T − 1 (0 when T is 0), n 1 to 15, k 0 to
7. The operands are as a message carries them: two cell slots and T of two characters. -/
def Obligations.LoadSymbolIsExaminedInOrder : Prop :=
  ∀ (addr : Nat) (a : LoadArgs) (s : State), s.takes addr → s.directory.operation = .idle → s.store.walk = none →
    a.cells.length ≤ 2 → a.settings.t ≤ 65535 →
    let bad := wellFormedCode a.code = false ∨ 512 ≤ a.record ∨ (a.grid ≠ 8 ∧ a.grid ≠ 16 ∧ a.grid ≠ 32 ∧ a.grid ≠ 64) ∨
      (∃ c ∈ a.cells, 3 < c.1 ∨ 63 < c.2) ∨ ¬ a.cells.Nodup ∨ (∃ p, a.prevClose = some p ∧ (p = 0 ∨ 1048575 < p))
    let full := 512 ≤ countEntries s.directory.entries .primary
    let taken := s.record? a.record ≠ none ∨ lookupCode s.directory.entries a.code ≠ none
    (bad → exec (.loadSymbol addr a) s = .next (s.replied 4 .badArgument .empty)) ∧
    (¬ bad → full → exec (.loadSymbol addr a) s = .next (s.replied 4 .noRoom .empty)) ∧
    (¬ bad → ¬ full → taken → exec (.loadSymbol addr a) s = .next (s.replied 4 .exists_ .empty)) ∧
    (¬ bad → ¬ full → ¬ taken → ∃ t b, exec (.loadSymbol addr a) s = .next t ∧
      (t.directory.operation = .draining (.load b) true ∨ t.directory.operation = .working (.load b) true) ∧
      b = { a with settings := b.settings } ∧ b.settings.t = a.settings.t ∧
      b.settings.h = (if a.settings.t = 0 then 0 else min a.settings.h (a.settings.t - 1)) ∧
      b.settings.n = max 1 (min 15 a.settings.n) ∧ b.settings.k = min 7 a.settings.k)

/-- LOAD SYMBOL completes (R7, R11, R12): its PRIMARY entry joins the directory, the record is occupied with its load values,
every cell named is taken from the record that listed it, assigned and marked dirty, DONE is placed, and nothing else
changes; a desk request held for a lookup is then served against the new contents (R3, R128). -/
def Obligations.LoadSymbolCompletes : Prop :=
  ∀ (a : LoadArgs) (held : Bool) (s : State), s.referencesAgree → s.directory.operation = .working (.load a) held →
    let cells := a.cells.map fun c => c.1 * 64 + c.2
    let leaves := fun (t : State) =>
      t = State.operationDone { s with directory := t.directory, store := t.store, board := t.board } held 4
        (.codeRecord a.code a.record) ∧
      t.directory.entries = insertEntry s.directory.entries { code := a.code, record := a.record, kind := .primary } ∧
      t.store = { s.store with records := t.store.records } ∧
      t.record? a.record = some
        { code := a.code, grid := a.grid, maskA := a.maskA, maskB := a.maskB, cells := cells, halted := none,
          prevClose := a.prevClose, last := none, reference := none, tick := .noTick, opening := none, high := none,
          low := none, volume := 0, bid := none, ask := none, ring := [], traded := false,
          monitor := ⟨a.settings, .calm, 0, a.prevClose.map (· * 256), none, none⟩ } ∧
      (∀ r, r ≠ a.record → t.record? r = (s.record? r).map fun q => { q with cells := q.cells.filter fun c => c ∉ cells }) ∧
      t.board = { s.board with cellMap := t.board.cellMap, dirty := markCells s.board.dirty cells } ∧
      (∀ c, tableGet t.board.cellMap c = if c ∈ cells then some a.record else tableGet s.board.cellMap c)
    (s.noRequestHeld ∨ s.store.walk ≠ none → ∃ t, exec .loadSymbolCompletion s = .next t ∧ leaves t) ∧
    (s.store.walk = none → ∀ (u : Transaction) (request : LookupRequest), s.desk.transaction = some u →
      u.held = some request →
      ∃ t, exec .loadSymbolCompletion s = .next (t.serveLookup u request) ∧ leaves t)

/-- ADD ALIAS and DROP ALIAS complete (R13, R14): the entry joins its place in the order or leaves, DONE is placed, and
nothing else changes; a desk request held for a lookup is then served against the new contents (R3, R128). -/
def Obligations.AliasOperationsComplete : Prop :=
  ∀ (code : Code) (r : Nat) (held : Bool) (s : State),
    let more := insertEntry s.directory.entries { code := code, record := r, kind := .aliased }
    let fewer := s.directory.entries.filter fun e => e.code ≠ code
    let added := State.operationDone { s with directory := { s.directory with entries := more } } held 5 (.codeRecord code r)
    let dropped := State.operationDone { s with directory := { s.directory with entries := fewer } } held 6 (.code code)
    (s.directory.operation = .working (.addAlias code r) held → s.noRequestHeld ∨ s.store.walk ≠ none →
      exec .addAliasCompletion s = .next added) ∧
    (s.directory.operation = .working (.dropAlias code) held → s.noRequestHeld ∨ s.store.walk ≠ none →
      exec .dropAliasCompletion s = .next dropped) ∧
    (s.store.walk = none → ∀ (u : Transaction) (request : LookupRequest), s.desk.transaction = some u →
      u.held = some request →
      (s.directory.operation = .working (.addAlias code r) held →
        exec .addAliasCompletion s = .next (added.serveLookup u request)) ∧
      (s.directory.operation = .working (.dropAlias code) held →
        exec .dropAliasCompletion s = .next (dropped.serveLookup u request)))

/-- DROP SYMBOL completes (R15 to R17): every entry naming the record leaves the directory, its cells are unassigned and
marked dirty, it leaves every watch list with its marks and alerts, the page on the line and the suspended page lose its
lines, it is unoccupied, DONE is placed; the tapes, the counters and the other records are left alone (R18). A desk request held
for a lookup is then served against the new contents (R3, R128). That a WATCH CHANGES page forgets a line it has sent for the
record, an entry being known by its record's number, is the model's reading (assumption 24). -/
def Obligations.DropSymbolCompletes : Prop :=
  (∀ (code : Code) (r : Nat) (q : QuoteRecord) (held : Bool) (s : State),
     s.directory.operation = .working (.dropSymbol code r) held → s.record? r = some q →
     let leaves := fun (t : State) =>
       t = State.operationDone { s with directory := t.directory, store := t.store, board := t.board, desk := t.desk } held 7
         (.codeRecord code r) ∧
       t.directory.entries = s.directory.entries.filter (fun e => e.record ≠ r) ∧
       t.store = { s.store with records := t.store.records } ∧ t.record? r = none ∧
       (∀ r', r' ≠ r → t.record? r' = s.record? r') ∧
       t.board = { s.board with cellMap := t.board.cellMap, dirty := markCells s.board.dirty q.cells } ∧
       (∀ c, tableGet t.board.cellMap c = if c ∈ q.cells then none else tableGet s.board.cellMap c) ∧
       t.desk = { s.desk.mapPages (fun _ => true) (Page.withoutRecord r) with
         stations := s.desk.stations.map fun st => { st with
           watch := st.watch.filter fun e => e.record ≠ r
           alerts := st.alerts.filter fun a => a.record ≠ r } }
     (s.noRequestHeld ∨ s.store.walk ≠ none → ∃ t, exec .dropSymbolCompletion s = .next t ∧ leaves t) ∧
     (s.store.walk = none → ∀ (u : Transaction) (request : LookupRequest), s.desk.transaction = some u →
       u.held = some request →
       ∃ t, exec .dropSymbolCompletion s =
           .next (t.serveLookup { u with page := u.page.map (Page.withoutRecord r) } request) ∧ leaves t)) ∧
  (∀ (r record lines : Nat) (left sent : List Nat),
     Page.withoutRecord r (.quote record left) = .quote record (if record = r then [] else left) ∧
       Page.withoutRecord r (.recent record left) = .recent record (if record = r then [] else left) ∧
       Page.withoutRecord r (.watch left) = .watch (left.filter fun x => x ≠ r) ∧
       Page.withoutRecord r (.changes sent lines) = .changes (sent.filter fun x => x ≠ r) lines)

/-! ### The other commands -/

/-- SET CELL (R98), addressed and broadcast: its refusals, and on every case acted on the cell names what was given, the lists
follow, the cell is marked dirty, and DONE carries the cell and what it names. -/
def Obligations.SetCellAssignsCell : Prop :=
  ∀ (panel cell : Nat) (record : Option Nat) (s : State), s.referencesAgree →
    let row := fun addr => Instr.setCell addr panel cell record
    let n := panel * 64 + cell
    let listed := fun (r : Nat) (cells : List Nat) =>
      if record = some r then (if n ∈ cells then cells else cells ++ [n]) else cells.filter fun c => c ≠ n
    (3 < panel ∨ 63 < cell ∨ (∃ r, record = some r ∧ 512 ≤ r) → s.answersAs row 8 .badArgument .empty s) ∧
    (panel ≤ 3 → cell ≤ 63 → ∀ r, record = some r → r < 512 → s.record? r = none →
      s.answersAs row 8 .notFound .empty s) ∧
    (panel ≤ 3 → cell ≤ 63 → ∀ r q, record = some r → s.record? r = some q → q.cells.length = 2 → n ∉ q.cells →
      s.answersAs row 8 .noRoom .empty s) ∧
    (panel ≤ 3 → cell ≤ 63 →
      (∀ r, record = some r → ∃ q, s.record? r = some q ∧ (q.cells.length < 2 ∨ n ∈ q.cells)) →
      ∃ t, s.answersAs row 8 .done (.cell panel cell record) t ∧
        t = { s with store := t.store, board := t.board } ∧
        t.store = { s.store with records := t.store.records } ∧
        t.board = { s.board with cellMap := t.board.cellMap, dirty := markCell s.board.dirty n } ∧
        (∀ c, tableGet t.board.cellMap c = if c = n then record else tableGet s.board.cellMap c) ∧
        (∀ r, t.record? r = (s.record? r).map fun q => { q with cells := listed r q.cells }))

/-- SET MONITOR (R70), addressed and broadcast: stored clamped, CALM with the baseline kept; the cells are marked when the
monitor was ACTIVE or RELEASING, the watch entries when it was other than CALM; refused for a number of 512 or more and an
unoccupied record. -/
def Obligations.SetMonitorStoresSettings : Prop :=
  ∀ (r : Nat) (m : MonSettings) (s : State),
    let row := fun addr => Instr.setMonitor addr r m
    (512 ≤ r → s.answersAs row 9 .badArgument .empty s) ∧
    (r < 512 → s.record? r = none → s.answersAs row 9 .notFound .empty s) ∧
    (r < 512 → ∀ q, s.record? r = some q →
      let stored : MonSettings :=
        { t := min 65535 m.t, h := min m.h (min 65535 m.t - 1), n := min 15 (max 1 m.n), k := min 7 m.k }
      let t := s.setRecord r { q with monitor :=
        { settings := stored, state := .calm, count := 0, baseline := q.monitor.baseline, direction := none,
          hold := none } }
      s.answersAs row 9 .done (.settings stored)
        { t with
          board := if q.monitor.state = .active ∨ q.monitor.state = .releasing then s.board.mark q.cells else s.board
          desk := if q.monitor.state = .calm then s.desk else s.desk.touch r noAlert })

/-- LOAD WATCH and CLEAR WATCH (R151), addressed and broadcast: refusals, and the list replaced, keeping the mark and the alert
of every record that both lists name; the station's page on the line and its suspended page lose the lines of the entries that
left. Nothing outside the desk controller and the reply queue changes. That a WATCH CHANGES page forgets a line it has sent for
an entry that left, an entry being known by its record's number, is the model's reading (assumption 24). -/
def Obligations.WatchListIsReplaced : Prop :=
  (∀ (n : Nat) (entries : List WatchArgs) (s : State),
     let load := fun addr => Instr.loadWatch addr n entries
     let clear := fun addr => Instr.clearWatch addr n
     let edited := fun (gone : Nat → Bool) (st : Station) => { s with desk :=
       { s.desk.mapPages (fun m => decide (m = n)) (Page.withoutEntries gone) with
         stations := s.desk.stations.set n st } }
     (15 < n ∨ 12 < entries.length ∨ (∃ w ∈ entries, 512 ≤ w.record) ∨ ¬ (entries.map WatchArgs.record).Nodup ∨
         (∃ w ∈ entries, ∃ p, (w.above = some p ∨ w.below = some p) ∧ (p = 0 ∨ 1048575 < p)) →
       s.answersAs load 10 .badArgument .empty s) ∧
     (watchArgsSound n entries = true → (∃ w ∈ entries, s.record? w.record = none) →
       s.answersAs load 10 .notFound .empty s) ∧
     (watchArgsSound n entries = true → (∀ w ∈ entries, s.record? w.record ≠ none) → ∀ st,
       s.desk.stations[n]? = some st → s.answersAs load 10 .done (.watchLoaded n entries.length)
         (edited (fun x => !(entries.any fun w => decide (w.record = x))) { st with
           watch := entries.map fun w =>
             { record := w.record, above := w.above, below := w.below, move := w.move,
               pending := st.watch.any fun e => decide (e.record = w.record) && e.pending }
           alerts := st.alerts.filter fun a => entries.any fun w => decide (w.record = a.record) })) ∧
     (15 < n → s.answersAs clear 11 .badArgument .empty s) ∧
     (n ≤ 15 → ∀ st, s.desk.stations[n]? = some st →
       s.answersAs clear 11 .done (.station n) (edited (fun _ => true) { st with watch := [], alerts := [] }))) ∧
  (∀ (gone : Nat → Bool) (left sent : List Nat) (record lines : Nat),
     Page.withoutEntries gone (.watch left) = .watch (left.filter fun x => !gone x) ∧
       Page.withoutEntries gone (.changes sent lines) = .changes (sent.filter fun x => !gone x) lines ∧
       Page.withoutEntries gone (.quote record left) = .quote record left ∧
       Page.withoutEntries gone (.recent record left) = .recent record left)

/-- SET STATION (R152), addressed and broadcast: refusals, the interval clamped to 1 to 60 s, and Table 7-4's effects on the
stream timer and the stream-due flag. -/
def Obligations.SetStationChangesMode : Prop :=
  ∀ (n mode interval : Nat) (s : State),
    let row := fun addr => Instr.setStation addr n mode interval
    let seconds := min 60 (max 1 interval)
    (15 < n ∨ 2 < mode → s.answersAs row 12 .badArgument .empty s) ∧
    (n ≤ 15 → mode ≤ 2 → ∀ st, s.desk.stations[n]? = some st → ∃ m st',
      (mode = 0 → m = .event) ∧ (mode = 1 → m = .stream) ∧ (mode = 2 → m = .quiet) ∧
      st.modeStored s.clock m seconds st' ∧
      s.answersAs row 12 .done (.modeStored m seconds) (s.withStation n st'))

/-- SET PARAMETER of a parameter that is no level threshold (R186, Table 9-3, R192), addressed and broadcast: clamped to its
range, stored, and answered as stored, tape A's scope as LISTED for 0 and ALL otherwise; the check-failure limit is tested at
the setting (R168); every other identifier but the six thresholds' names no parameter and changes nothing. -/
def Obligations.SetParameterClampsAndStores : Prop :=
  ∀ (v : Nat) (s : State),
    let row := fun (ident addr : Nat) => Instr.setParameter addr ident v
    let stored := fun (ident low high : Nat) (p : Params) =>
      s.answersAs (row ident) 13 .done (.parameter ident (min high (max low v))) { s with params := p }
    let limit := min 65535 (max 1 v)
    stored 1 1 255 { s.params with feedLossHold := min 255 (max 1 v) } ∧
    s.answersAs (row 2) 13 .done (.parameter 2 limit)
      { s with
        params := { s.params with checkFailureLimit := limit }
        feed := { s.feed with errorLimit := s.feed.errorLimit || decide (limit ≤ s.counters.checkFailures) } } ∧
    stored 3 5 255 { s.params with replyHold := min 255 (max 5 v) } ∧
    stored 4 20 600 { s.params with ribbonRateA := min 600 (max 20 v) } ∧
    stored 5 20 600 { s.params with ribbonRateB := min 600 (max 20 v) } ∧
    s.answersAs (row 6) 13 .done (.tapeScope (decide (v ≠ 0))) { s with params := { s.params with scopeAll := decide (v ≠ 0) } } ∧
    stored 13 2 9999 { s.params with blockThreshold := min 9999 (max 2 v) } ∧
    stored 14 1 8 { s.params with blockSize := min 8 (max 1 v) } ∧
    stored 15 5 255 { s.params with panelWindow := min 255 (max 5 v) } ∧
    stored 16 5 600 { s.params with sweepInterval := min 600 (max 5 v) } ∧
    stored 17 1 255 { s.params with requestWindow := min 255 (max 1 v) } ∧
    stored 18 1 255 { s.params with answerWindow := min 255 (max 1 v) } ∧
    stored 19 1 255 { s.params with deskStuck := min 255 (max 1 v) } ∧
    stored 20 1 255 { s.params with moveHold := min 255 (max 1 v) } ∧
    (∀ ident, ident = 0 ∨ 20 < ident → s.answersAs (row ident) 13 .badArgument .empty s)

/-- R187: SET PARAMETER of a level threshold (identifiers 7 to 12, R192), addressed and broadcast, clamps it between its
neighbours, lowers a leave that is no longer below its enter, changes no other level, and answers with the level's enter and
leave as stored; the defaults and every setting keep the six in order. -/
def Obligations.LevelThresholdsStayInOrder : Prop :=
  Params.defaults.ordered ∧ ∀ (k v : Nat) (s : State), s.params.ordered → 1 ≤ k → k ≤ 3 →
    let old := s.params.level k
    let raised := if k = 1 then min 3600 (max 2 v) else max (s.params.level (k - 1)).enter (min 3600 (max 2 v))
    let enter := if k = 3 then raised else min (s.params.level (k + 1)).enter raised
    let leave := min 3600 (max 1 v)
    let entered := s.params.setLevel k { enter := enter, leave := if enter ≤ old.leave then enter - 1 else old.leave }
    let left := s.params.setLevel k { enter := old.enter, leave := if old.enter ≤ leave then old.enter - 1 else leave }
    s.answersAs (fun addr => Instr.setParameter addr (6 + k) v) 13 .done
      (.levelParameter (6 + k) (entered.level k).enter (entered.level k).leave) { s with params := entered } ∧
    s.answersAs (fun addr => Instr.setParameter addr (9 + k) v) 13 .done
      (.levelParameter (9 + k) (left.level k).enter (left.level k).leave) { s with params := left } ∧
    entered.ordered ∧ left.ordered

/-- R112: PAUSE BOARD by the pause state, for an addressed command and for a broadcast, in either unit state. -/
def Obligations.PauseBoardWaitsForBlock : Prop :=
  ∀ (addr : Nat) (s : State),
    let pause :=
      match s.board.pause, s.board.block with
      | .running, some _ => PauseState.pausing
      | .running, none => .paused
      | kept, _ => kept
    let paused := { s with board := { s.board with pause := pause } }
    (s.takes addr → exec (.pauseBoard addr) s = .next (paused.replied 14 .done (.pauseState pause))) ∧
    exec (.pauseBoard 63) s = .next paused

/-- CONTINUE BOARD (R114), RESTORE PANEL (R111), each addressed and broadcast, and the sweep (R109): RUNNING again, with a block
assembled at once by R103 when the board was PAUSED; a panel IN with count 0 and its assigned cells marked, or BAD ARGUMENT
above 3; at the sweep's expiry every assigned cell marked in ascending order, every OUT panel PROBING with its count kept, and
the next expiry one interval on. An answer with no block in flight is discarded (R104). An event whose condition does not hold
changes nothing (assumption 6). -/
def Obligations.BoardContinuesAndSweeps : Prop :=
  (∀ (panel : Nat) (s : State), s.board.lawful →
     let restore := fun addr => Instr.restorePanel addr panel
     let running := { s with board := { s.board with pause := .running } }
     (s.board.pause ≠ .paused → s.answersAs Instr.continueBoard 15 .done (.pauseState .running) running) ∧
     (s.board.pause = .paused → ∃ t, exec .blockAssembly running = .next t ∧
       s.answersAs Instr.continueBoard 15 .done (.pauseState .running) t) ∧
     (3 < panel → s.answersAs restore 16 .badArgument .empty s) ∧
     (panel ≤ 3 → s.answersAs restore 16 .done (.panelState .inService)
       { s with board := { s.board with
           panels := s.board.panels.set panel { state := .inService, failures := 0 }
           dirty := markCells s.board.dirty ((s.board.cellMap.map Prod.fst).filter fun c => c / 64 = panel) } })) ∧
  (∀ (panel count check : Byte) (s : State), s.referencesAgree → s.board.panels.length = 4 →
     (reached s.clock s.board.sweepAt = true → exec .sweepExpiry s = .next { s with board := { s.board with
       panels := s.board.panels.map fun p => if p.state = .out then { p with state := .probing } else p
       dirty := markCells s.board.dirty (s.board.cellMap.map Prod.fst)
       sweepAt := s.clock + BitVec.ofNat 32 (s.params.sweepInterval * 1000) } }) ∧
     (reached s.clock s.board.sweepAt = false → exec .sweepExpiry s = .next s) ∧
     (s.board.block = none → exec (.boardAnswer panel count check) s = .next s ∧ exec .blockDeadline s = .next s))

/-- The five queries (R181, R188, Table 10-4): the part asked for, with every figure that its rule names (R20, R73, R95, R115,
R140, R160, R175, R189), the query's own place counted as reserved and the place of a reply being sent as filled (R169); BAD
ARGUMENT beyond the last part, a record of 512 or more, or a station above 15; NOT FOUND for an unoccupied record; and nothing
but the reply queue changes. A broadcast query does nothing. The UNIT ATTENTION output is lit exactly while one of the five
conditions that part 0 of QUERY STATUS gives holds (R189). The presence reading is the last scan's, and the walk is shown by
the number it reaches next: the model's readings (assumptions 27 and 38). That a part of QUERY RECORD beyond the last is BAD
ARGUMENT for an unoccupied record too is the model's choice of an order that R181 leaves open (assumption 46). -/
def Obligations.QueriesOnlyAnswer : Prop :=
  ∀ (addr part n : Nat) (s : State),
    let tape := fun (t : Tape) => ({
      ribbon :=
        match t.ribbon with
        | .idle => .idle
        | .notice _ _ => .notice
        | .item _ _ => .item
      level := t.level
      queued := t.queue.length
      omittedQueued := t.queue.findSome? fun i =>
        match i.kind with
        | .omitted count => some count
        | _ => none
      omitted := t.omitted
      shown := t.shown.length } : TapeReport)
    (s.unitAttention = true ↔ s.manager.state = .held ∨ s.feed.feed = .lost ∨ s.feed.errorLimit = true ∨
      s.desk.line = .stuck ∨ ∃ p ∈ s.board.panels, p.state = .out) ∧
    (∀ c ∈ [Instr.queryStatus 63 part, .queryRecord 63 part n, .queryStation 63 part n, .queryWatch 63 part n,
      .queryCounters 63 part], exec c s = .next s) ∧
    (s.takes addr →
      exec (.queryStatus addr 0) s = .next (s.replied 17 .done (.statusUnit
        { address := s.manager.address
          source := s.manager.source
          state := s.manager.state
          cause := s.manager.cause
          lamp :=
            { held := decide (s.manager.state = .held)
              feedLost := decide (s.feed.feed = .lost)
              errorLimit := s.feed.errorLimit
              deskStuck := decide (s.desk.line = .stuck)
              panelOut := s.board.panels.any fun p => decide (p.state = .out) }
          primaries := (s.directory.entries.filter fun e => e.kind = .primary).length
          aliases := (s.directory.entries.filter fun e => e.kind = .aliased).length
          operation :=
            match s.directory.operation with
            | .idle => .idle
            | .draining _ _ => .draining
            | .working _ _ => .working
          session := s.store.session
          floor := s.store.floor
          walk := s.store.walk })) ∧
      exec (.queryStatus addr 1) s = .next (s.replied 17 .done (.statusTapes (tape s.tapeA) (tape s.tapeB))) ∧
      exec (.queryStatus addr 2) s = .next (s.replied 17 .done (.statusBoard
        { pause := s.board.pause
          panels := s.board.panels
          dirty := s.board.dirty.length
          block := s.board.block.map fun b => (b.panel, b.cells.length) })) ∧
      exec (.queryStatus addr 3) s = .next (s.replied 17 .done (.statusLine
        { line := s.desk.line
          transaction := s.desk.transaction.map fun t => (t.station, t.kind)
          slot := s.desk.slot.map fun p => (p.station, p.causing)
          stuckSet := decide (s.desk.stuckAt ≠ none)
          alternation := s.desk.alternation
          lastAlert := s.desk.lastAlert
          lastRoutine := s.desk.lastRoutine })) ∧
      exec (.queryStatus addr 4) s = .next (s.replied 17 .done (.statusFeed
        { lock := s.feed.lock
          feed := s.feed.feed
          lossSet := decide (s.feed.lossAt ≠ none)
          forward := (s.feed.forward.map List.length).sum + s.feed.arriving.length
          reserved := s.feed.reserved + 1
          filled := s.feed.filled.length +
            (match s.feed.out with
            | .reply _ _ true => 1
            | _ => 0)
          errorLimit := s.feed.errorLimit
          intake := s.intake.queue.length
          marked := (s.intake.queue.filter fun m => m.marked).length
          expectation := s.intake.expectation })) ∧
      (4 < part → exec (.queryStatus addr part) s = .next (s.replied 17 .badArgument .empty)) ∧
      (3 < part ∨ 512 ≤ n → exec (.queryRecord addr part n) s = .next (s.replied 18 .badArgument .empty)) ∧
      (part ≤ 3 → n < 512 → s.record? n = none →
        exec (.queryRecord addr part n) s = .next (s.replied 18 .notFound .empty)) ∧
      (n < 512 → ∀ q, s.record? n = some q →
        exec (.queryRecord addr 0 n) s = .next (s.replied 18 .done (.recordIdentity q.code q.grid q.maskA q.maskB q.cells
          q.halted q.prevClose q.last q.reference q.tick q.traded)) ∧
        exec (.queryRecord addr 1 n) s = .next (s.replied 18 .done
          (.recordDay q.opening q.high q.low q.volume q.bid q.ask)) ∧
        exec (.queryRecord addr 2 n) s = .next (s.replied 18 .done (.recordRing q.ring)) ∧
        exec (.queryRecord addr 3 n) s = .next (s.replied 18 .done
          (.recordMonitor q.monitor (decide (q.code ∈ s.tapeA.shown)) (decide (q.code ∈ s.tapeB.shown))))) ∧
      (s.desk.stations[n]? = none →
        exec (.queryStation addr part n) s = .next (s.replied 19 .badArgument .empty) ∧
        exec (.queryWatch addr part n) s = .next (s.replied 20 .badArgument .empty)) ∧
      (∀ st, s.desk.stations[n]? = some st →
        exec (.queryStation addr 0 n) s = .next (s.replied 19 .done (.stationState st.presence
          (s.desk.scanPrevious.getLsbD n) st.mode st.interval st.streamDue
          (st.streamAt.map fun at_ => (at_ - s.clock).toNat) st.served st.failedRun)) ∧
        exec (.queryStation addr 1 n) s = .next (s.replied 19 .done (.stationCounters st.counters)) ∧
        (1 < part → exec (.queryStation addr part n) s = .next (s.replied 19 .badArgument .empty)) ∧
        (part ≤ 2 → exec (.queryWatch addr part n) s = .next (s.replied 20 .done (.watchEntries
          (((st.watch.drop (4 * part)).take 4).map fun e =>
            { entry := e, code := (s.record? e.record).map QuoteRecord.code })))) ∧
        exec (.queryWatch addr 3 n) s = .next (s.replied 20 .done (.watchAlerts (st.alerts.take 6))) ∧
        exec (.queryWatch addr 4 n) s = .next (s.replied 20 .done (.watchAlerts ((st.alerts.drop 6).take 6))) ∧
        (4 < part → exec (.queryWatch addr part n) s = .next (s.replied 20 .badArgument .empty))) ∧
      exec (.queryCounters addr 0) s = .next (s.replied 21 .done (.counters s.counters)) ∧
      (0 < part → exec (.queryCounters addr part) s = .next (s.replied 21 .badArgument .empty)))

/-- ASSIGN (R179): with address 0 an unassigned unit takes a candidate from 1 to 62, and the ASSIGN in the forward queue
becomes the next candidate's with its check made anew; every other candidate, and a unit that is assigned, lets it go by;
with this unit's address it is BAD ARGUMENT, and a broadcast is not acted on. That the ASSIGN stands newest in the forward
queue, and that the replacement joins the queue where the row is given without its message, is how this model passes it
(assumption 5); that a candidate above 63, for which R179's table has no row, is let go by too is its choice (assumption 45). -/
def Obligations.AssignIsTakenAndReplaced : Prop :=
  ∀ (addr n : Nat) (earlier : List (List FeedChar)) (s : State),
    (s.manager.source = .unassigned → 1 ≤ n → n ≤ 62 → s.feed.forwardCount ≤ 512 →
      s.feed.forward = earlier ++ [queued (commandMessage 0 (.assign n))] →
      exec (.assign 0 n) s = .next
        { s with
          manager := { s.manager with address := n, source := .assigned }
          feed := { s.feed with forward := earlier ++ [queued (commandMessage 0 (.assign (n + 1)))] } }) ∧
    (s.manager.source = .unassigned → 1 ≤ n → n ≤ 62 → s.feed.forwardCount ≤ 320 →
      s.feed.forward.getLast? ≠ some (queued (commandMessage 0 (.assign n))) →
      exec (.assign 0 n) s = .next
        { s with
          manager := { s.manager with address := n, source := .assigned }
          feed := s.feed.takeMessage (queued (commandMessage 0 (.assign (n + 1)))) }) ∧
    characterSum (commandMessage 0 (.assign (n + 1))) = 0 ∧
    (s.manager.source ≠ .unassigned ∨ n = 0 ∨ 62 < n → exec (.assign 0 n) s = .next s) ∧
    (s.takes addr → exec (.assign addr n) s = .next (s.replied 23 .badArgument .empty)) ∧
    exec (.assign 63 n) s = .next s

/-! ### The feed -/

/-- A command message received whole while LOCKED does what its row does (R167, R180, R190): one of this unit's that finds a
place free leaves the forward queue and is dealt with; every other is forwarded and then dealt with by its address. The
characters are those of Tables 10-1 and 10-3, so every operand at every value its field carries arrives as it was sent. The places
are those left at the arrival, when a reply whose characters are all out has left its own (R169; assumption 9). That a command's
row stands for its message so received is the model's choice (assumption 5). -/
def Obligations.CommandMessageActsAsItsRow : Prop :=
  ∀ (addr : Nat) (c : Command) (front : List Byte) (last : Byte) (s : State), addr < 256 → c.wellFormed = true →
    commandMessage addr c = front ++ [last] → s.feed.lock = .locked → s.feed.arriving = queued front →
    s.feed.forwardCount < 512 →
    let examined := if s.ownAddress addr && s.arrived.feed.placeFree then s.arrived else s.forwarded (commandMessage addr c)
    exec (.feedMessageReceived last) s =
      exec (commandRow addr c) { examined with feed := { examined.feed with faultRun := 0 } } ∧
    ∃ t, exec (.feedMessageReceived last) s = .next t

/-- A market message received whole while LOCKED is forwarded and sequence-checked (R167, R171, Table 8-2): accepted into the
intake queue, or dropped when it holds 16 (R172), counted as a gap, or ignored and counted. One whose length does not agree with
its kind is counted as malformed (R171), and so, as the model reads R191, is one with a sequence number above 4,095 (assumption
13). -/
def Obligations.MarketMessageIsSequenceChecked : Prop :=
  (∀ (q : Nat) (m : MarketMsg) (front : List Byte) (last : Byte) (s : State), q ≤ 4095 → m.wellFormed = true →
     marketMessage q m = front ++ [last] → s.feed.lock = .locked → s.feed.arriving = queued front →
     s.feed.forwardCount < 512 →
     let passed := { s.forwarded (marketMessage q m) with
       feed := { (s.forwarded (marketMessage q m)).feed with faultRun := 0 } }
     let accepted := fun (x : State) =>
       if s.intake.queue.length < 16 then
         { x with intake := { expectation := some q, queue := s.intake.queue ++ [⟨q, m, false⟩] } }
       else
         { x with
           intake := { s.intake with expectation := some q }
           counters := { x.counters with overruns := min 65535 (x.counters.overruns + 1) } }
     let gap := fun (d : Nat) => { passed with counters := { s.counters with
       gaps := min 65535 (s.counters.gaps + 1), missed := min 65535 (s.counters.missed + (d - 1)) } }
     let ignored := { passed with counters := { s.counters with duplicates := min 65535 (s.counters.duplicates + 1) } }
     (s.intake.expectation = none → exec (.feedMessageReceived last) s = .next (accepted passed)) ∧
     (∀ e, s.intake.expectation = some e → e ≤ 4095 →
       let d := (q + 4096 - e) % 4096
       (d = 1 → exec (.feedMessageReceived last) s = .next (accepted passed)) ∧
       (2 ≤ d → d ≤ 2047 → exec (.feedMessageReceived last) s = .next (accepted (gap d))) ∧
       (d = 0 ∨ 2048 ≤ d → exec (.feedMessageReceived last) s = .next ignored))) ∧
  (∀ (kind length : Byte) (more : List Byte) (last : Byte) (s : State), s.completedBy (kind :: length :: more) →
     let bytes := kind :: length :: more ++ [last]
     s.feed.lock = .locked → characterSum bytes = 0 → 17 ≤ kind.toNat → kind.toNat ≤ 26 →
     marketOf bytes = none ∨ 4095 < fieldOf bytes 2 2 → exec (.feedMessageReceived last) s = .next
       { s.forwarded bytes with
         feed := { (s.forwarded bytes).feed with faultRun := 0 }
         counters := { s.counters with malformed := min 65535 (s.counters.malformed + 1) } })

/-- A whole message that is no command and no market message, or fails its check (R163, R164, R167, R168): forwarded in every
case; a wrong check counted while LOCKED and the error limit tested; another unit's reply forwarded only, an unknown kind
counted as malformed; while SEARCHING the first well-formed message makes the good run 1, a failed one makes it 0, and the
second brings lock, with FEED RESTORED when the feed was LOST. Whatever its kind, a market message, a command, a reply or an
unknown kind, the message that brings lock is then acted on as it would be in the state that lock leaves, LOCKED with R164's
effects, and this completes (R163, R164). -/
def Obligations.WholeMessagesMoveLockAndCounts : Prop :=
  ∀ (kind length : Byte) (more : List Byte) (last : Byte) (s : State), s.completedBy (kind :: length :: more) →
    let bytes := kind :: length :: more ++ [last]
    let passed := s.forwarded bytes
    let gained := { s with feed := { s.feed with
      lock := .locked, goodRun := 2, faultRun := 0, lossAt := none, feed := .normal } }
    let restored := State.offer
      { gained with
        intake := { s.intake with expectation := none }
        board := { s.board with dirty := markCells s.board.dirty (s.board.cellMap.map Prod.fst) } }
      true true .feedRestored
    let failures := min 65535 (s.counters.checkFailures + 1)
    let locked := { passed.feed with lock := .locked, goodRun := 2, faultRun := 0, lossAt := none, feed := .normal }
    (s.feed.lock = .locked → characterSum bytes ≠ 0 → exec (.feedMessageReceived last) s = .next
      { passed with
        feed := { passed.feed with
          faultRun := 0, errorLimit := s.feed.errorLimit || decide (s.params.checkFailureLimit ≤ failures) }
        counters := { s.counters with checkFailures := failures } }) ∧
    (s.feed.lock = .locked → characterSum bytes = 0 → kind = 65#8 → exec (.feedMessageReceived last) s = .next
      { passed with feed := { passed.feed with faultRun := 0 } }) ∧
    (s.feed.lock = .locked → characterSum bytes = 0 → kind.toNat < 17 ∨ (26 < kind.toNat ∧ kind.toNat < 64) ∨ 65 < kind.toNat →
      exec (.feedMessageReceived last) s = .next
        { passed with
          feed := { passed.feed with faultRun := 0 }
          counters := { s.counters with malformed := min 65535 (s.counters.malformed + 1) } }) ∧
    (s.feed.lock = .searching → characterSum bytes ≠ 0 →
      exec (.feedMessageReceived last) s = .next { passed with feed := { passed.feed with goodRun := 0 } }) ∧
    (s.feed.lock = .searching → characterSum bytes = 0 → s.feed.goodRun = 0 →
      exec (.feedMessageReceived last) s = .next { passed with feed := { passed.feed with goodRun := 1 } }) ∧
    (s.feed.lock = .searching → characterSum bytes = 0 → s.feed.goodRun = 1 →
      exec (.feedMessageReceived last) s =
          exec (.feedMessageReceived last) (if s.feed.feed = .lost then restored else gained) ∧
        ∃ t, exec (.feedMessageReceived last) s = .next t) ∧
    (s.feed.lock = .searching → characterSum bytes = 0 → s.feed.goodRun = 1 → kind = 65#8 →
      (s.feed.feed = .normal → exec (.feedMessageReceived last) s = .next { passed with feed := locked }) ∧
      (s.feed.feed = .lost → exec (.feedMessageReceived last) s = .next (State.offer
        { passed with
          feed := locked
          intake := { s.intake with expectation := none }
          board := { s.board with dirty := markCells s.board.dirty (s.board.cellMap.map Prod.fst) } }
        true true .feedRestored)))

/-- What every arriving character does: the silence measure starts again (R163), FEED OUT is timed by the arrivals and one
character goes out on it, of whatever is being sent (R166; `FeedOutSendsByPriority` says which). And a character that completes no message (R162, R163, R190): a flag between messages
is held; a data character begins a message with a held flag, or joins the message in progress; a flag inside a message, a bad
length, a data character with no flag held and a bad stop bit are framing faults. A fault is counted and removes the partial
message; the third in a row while LOCKED loses lock, and one while SEARCHING makes the good run 0. That the fault run is kept at
the loss of lock is the model's choice (assumption 30). An event whose condition does not hold changes nothing (assumption 6). -/
def Obligations.CharactersFrameMessages : Prop :=
  ∀ (a : Arrival) (value kind length : Byte) (more : List Byte) (s : State),
    let noted := { s with feed := { s.feed.sendCharacter with
      lastArrival := s.clock, timing := .arrivals, crystalShare := 0 } }
    let faulted := fun (held : Bool) =>
      let counted := { noted with
        feed := { noted.feed with arriving := [], heldFlag := held }
        counters := { s.counters with framingFaults := min 65535 (s.counters.framingFaults + 1) } }
      if s.feed.lock = .searching then { counted with feed := { counted.feed with goodRun := 0 } }
      else if s.feed.faultRun < 2 then { counted with feed := { counted.feed with faultRun := s.feed.faultRun + 1 } }
      else
        { counted with
          feed := { counted.feed with
            faultRun := s.feed.faultRun + 1
            lock := .searching
            goodRun := 0
            lossAt :=
              if s.feed.lossAt = none ∧ s.feed.feed = .normal then some (after s.clock (s.params.feedLossHold * 100))
              else s.feed.lossAt }
          counters := { counted.counters with lockLosses := min 65535 (s.counters.lockLosses + 1) } }
    let held := s.feed.heldFlag = true ∧ (s.clock - s.feed.lastArrival).toNat < 250
    s.noteArrival = noted ∧
    (s.feed.arriving = [] →
      exec (.feedCharacterReceived .flag) s = .next { noted with feed := { noted.feed with heldFlag := true } }) ∧
    (s.feed.arriving = [] → held → s.feed.forwardCount + 2 ≤ 512 → exec (.feedCharacterReceived (.data value)) s = .next
      { noted with feed := { noted.feed with heldFlag := false, arriving := [.flag, .data value] } }) ∧
    (s.feed.arriving = [.flag, .data kind] → 4 ≤ value.toNat → value.toNat ≤ 64 → s.feed.forwardCount < 512 →
      exec (.feedCharacterReceived (.data value)) s = .next
        { noted with feed := { noted.feed with arriving := [.flag, .data kind, .data value] } }) ∧
    (s.feed.arriving = queued (kind :: length :: more) → more.length + 3 ≠ length.toNat → s.feed.forwardCount < 512 →
      exec (.feedCharacterReceived (.data value)) s = .next
        { noted with feed := { noted.feed with arriving := queued (kind :: length :: more ++ [value]) } }) ∧
    (s.feed.arriving ≠ [] → exec (.framingFault .flag) s = .next (faulted true)) ∧
    (s.feed.arriving = [] → ¬ held → exec (.framingFault (.data value)) s = .next (faulted false)) ∧
    (s.feed.arriving = [.flag, .data kind] → value.toNat < 4 ∨ 64 < value.toNat →
      exec (.framingFault (.data value)) s = .next (faulted false)) ∧
    (∃ still, exec (.framingFault .unreadable) s = .next (faulted still)) ∧
    (s.classOf a ≠ .joins → exec (.feedCharacterReceived a) s = .next s) ∧
    (s.classOf a ≠ .framingFault → exec (.framingFault a) s = .next s)

/-- Silence and the loss of the feed (R163, R164): 250 ms without a character while LOCKED lose lock, drop a held flag
and a partial message, and set the loss deadline; at the deadline while SEARCHING the feed is declared LOST, counted,
every assigned cell marked and FEED INTERRUPTED offered to both tapes. That the fault run is kept at the loss of lock is the
model's choice (assumption 30). An event whose condition does not hold changes nothing (assumption 6). -/
def Obligations.SilenceLosesLockAndFeed : Prop :=
  ∀ (s : State),
    let deadline :=
      if s.feed.lossAt = none ∧ s.feed.feed = .normal then some (after s.clock (s.params.feedLossHold * 100))
      else s.feed.lossAt
    (s.feed.lock = .locked → 250 ≤ (s.clock - s.feed.lastArrival).toNat → exec .lossOfLockOnSilence s = .next
      { s with
        feed := { s.feed with
          lock := .searching, goodRun := 0, arriving := [], heldFlag := false, lossAt := deadline }
        counters := { s.counters with lockLosses := min 65535 (s.counters.lockLosses + 1) } }) ∧
    (s.feed.lock = .searching ∨ (s.clock - s.feed.lastArrival).toNat < 250 → exec .lossOfLockOnSilence s = .next s) ∧
    (∀ at_, s.feed.lossAt = some at_ → reached s.clock at_ = true → s.feed.lock = .searching →
      exec .feedLost s = .next (State.offer
        { s with
          feed := { s.feed with lossAt := none, feed := .lost }
          counters := { s.counters with feedLosses := min 65535 (s.counters.feedLosses + 1) }
          board := { s.board with dirty := markCells s.board.dirty (s.board.cellMap.map Prod.fst) } }
        true true .feedInterrupted)) ∧
    (s.feed.lossAt = none ∨ s.feed.lock = .locked → exec .feedLost s = .next s)

/-- FEED OUT (R166): free, when all the characters of the idle flag, the message or the reply it was sending are out, it takes
the first filled reply when the forward queue holds 256 characters or fewer, otherwise the next whole message, otherwise an idle
flag; what was being sent has left, a reply's place with it (R169). Until they are out nothing else starts. One character sent is
the next of what is being sent, or the first of what then comes next; a message's leave the forward queue as they go out, and while
a reply or an idle flag goes out nothing leaves it. A quiet FEED IN leaves the timing to the crystal. An expired reply is discarded
and counted (R170). That the next thing starts at FEED_OUT_FREE, or with the character that follows, is the model's choice
(assumption 9). An event whose condition does not hold changes nothing (assumption 6). -/
def Obligations.FeedOutSendsByPriority : Prop :=
  (∀ (position : Nat) (s : State),
    let finished :=
      match s.feed.out with
      | .idleFlag unsent => unsent = []
      | .message => s.feed.forward.headD [] = []
      | .reply _ unsent _ => unsent = []
    let rest := if s.feed.out = .message then s.feed.forward.drop 1 else s.feed.forward
    let left := (rest.map List.length).sum + s.feed.arriving.length
    let replying := fun (first : FilledReply) (more : List FilledReply) (unsent : List FeedChar) =>
      { s.feed with forward := rest, filled := more, out := .reply first.reply unsent true }
    (finished →
      (∀ first more, s.feed.filled = first :: more → left ≤ 256 →
        exec .feedOutFree s = .next { s with feed := replying first more first.reply.characters } ∧
          s.feed.sendCharacter = replying first more (first.reply.characters.drop 1)) ∧
      (∀ head others, s.feed.filled = [] ∨ 256 < left → rest = head :: others →
        exec .feedOutFree s = .next { s with feed := { s.feed with forward := rest, out := .message } } ∧
          s.feed.sendCharacter = { s.feed with forward := head.drop 1 :: others, out := .message }) ∧
      (s.feed.filled = [] ∨ 256 < left → rest = [] →
        exec .feedOutFree s = .next { s with feed := { s.feed with forward := [], out := .idleFlag [.flag] } } ∧
          s.feed.sendCharacter = { s.feed with forward := [], out := .idleFlag [] })) ∧
    (¬ finished → exec .feedOutFree s = .next s ∧
      (∀ unsent, s.feed.out = .idleFlag unsent →
        s.feed.sendCharacter = { s.feed with out := .idleFlag (unsent.drop 1) }) ∧
      (∀ head others, s.feed.out = .message → s.feed.forward = head :: others →
        s.feed.sendCharacter = { s.feed with forward := head.drop 1 :: others }) ∧
      (∀ reply unsent place, s.feed.out = .reply reply unsent place →
        s.feed.sendCharacter = { s.feed with out := .reply reply (unsent.drop 1) place })) ∧
    exec .feedInQuiet s = .next { s with feed := { s.feed with timing := .crystal } } ∧
    (∀ held, s.feed.filled[position]? = some held → reached s.clock held.expiresAt = true →
      exec (.replyExpiry position) s = .next
        { s with
          feed := { s.feed with filled := s.feed.filled.eraseIdx position }
          counters := { s.counters with expiredReplies := min 65535 (s.counters.expiredReplies + 1) } }) ∧
    (∀ held, s.feed.filled[position]? = some held → reached s.clock held.expiresAt = false →
      exec (.replyExpiry position) s = .next s)) ∧
  (∀ (count : Nat) (f : Repeater),
    f.sendCharacters 0 = f ∧ f.sendCharacters (count + 1) = f.sendCharacter.sendCharacters count)

/-! ### The classifier and market messages -/

/-- What the classifier takes and lets go (R6, R33, R173, R174): nothing while an operation is WORKING, a walk is in flight or
the head is unmarked behind a DRAINING operation; while HELD a discard; a message whose fields fail R33 counted as malformed,
DAY START outside CLOSED with them. A marked head behind a DRAINING operation does what it does with no operation held, in
either unit state, and the last marked one taken with no walk begun leaves the operation WORKING. For a code the directory does
not hold (R90) a PRINT of 100 shares or more and a CANCEL reach tape A on grid 64 under scope ALL; otherwise, and for every
other kind, QUOTE, HALT, RESUME and FIGURES, the message is ignored without a count. -/
def Obligations.ClassifierExaminesHead : Prop :=
  (∀ (m : IntakeMessage) (rest : List IntakeMessage) (work : DirWork) (held : Bool) (s : State),
     s.intake.queue = m :: rest →
     let taken := { s with intake := { s.intake with queue := rest } }
     let discarded := { taken with counters := { s.counters with heldDiscards := min 65535 (s.counters.heldDiscards + 1) } }
     let malformed := { taken with counters := { s.counters with malformed := min 65535 (s.counters.malformed + 1) } }
     (s.directory.operation = .working work held ∨ s.store.walk ≠ none ∨
         (s.directory.operation = .draining work held ∧ m.marked = false) → exec .classifierTake s = .next s) ∧
     (s.directory.operation = .idle → s.store.walk = none →
       (s.manager.state = .held → exec .classifierTake s = .next discarded) ∧
       (s.manager.state = .running → fieldsSound m.message = false → exec .classifierTake s = .next malformed) ∧
       (s.manager.state = .running → m.message = .dayStart → s.store.session ≠ .closed →
         exec .classifierTake s = .next malformed)) ∧
     (s.directory.operation = .draining work held → s.store.walk = none → m.marked = true → s.manager.state = .held →
       exec .classifierTake s = .next { discarded with directory :=
         if ∃ x ∈ rest, x.marked = true then s.directory
         else { s.directory with operation := .working work held } }) ∧
     (s.directory.operation = .draining work held → s.store.walk = none → m.marked = true →
       ∃ t, exec .classifierTake { s with directory := { s.directory with operation := .idle } } = .next t ∧
         exec .classifierTake s = .next { t with directory := { s.directory with operation :=
           if t.store.walk ≠ none ∨ ∃ x ∈ rest, x.marked = true then (.draining work held)
           else (.working work held) } })) ∧
  (∀ (m : IntakeMessage) (rest : List IntakeMessage) (code : Code) (price volume c sequence : Nat) (condition : Condition)
     (s : State), s.classifies m rest → lookupCode s.directory.entries code = none → wellFormedCode code = true →
     isPrice price = true → isVolume volume = true →
     let taken := { s with intake := { s.intake with queue := rest } }
     (m.message = .print code price volume c → conditionOf c = some condition →
       exec .classifierTake s = .next
         (if s.params.scopeAll = true ∧ 100 ≤ volume then
           taken.offerTo .a (.print code price 64 volume condition [m.sequence])
          else taken)) ∧
     (m.message = .cancel code sequence price volume → sequence ≤ 4095 → exec .classifierTake s = .next
       (if s.params.scopeAll = true then taken.cancelOn .a code sequence price 64 volume else taken))) ∧
  (∀ (m : IntakeMessage) (rest : List IntakeMessage) (code : Code) (bid ask : Option (Nat × Nat)) (reason close : Nat)
     (opening high low volume : Option Nat) (s : State), s.classifies m rest → fieldsSound m.message = true →
     lookupCode s.directory.entries code = none →
     m.message = .quote code bid ask ∨ m.message = .halt code reason ∨ m.message = .resume code ∨
       m.message = .figures code close opening high low volume →
     exec .classifierTake s = .next { s with intake := { s.intake with queue := rest } })

/-- A PRINT taken as regular (R24, R27 to R31, R35 to R37, R39): every field of its record, the cells marked, the watch
entries told, the item offered, the off-grid counter; no other record changes. -/
def Obligations.RegularPrintMovesRecord : Prop :=
  ∀ (code : Code) (p v c seq r : Nat) (marked : Bool) (q : QuoteRecord) (rest : List IntakeMessage) (s : State),
    s.classifies ⟨seq, .print code p v c, marked⟩ rest → s.finds code r q → wellFormedCode code = true →
    isPrice p = true → isVolume v = true → c ≤ 1 → q.halted = none →
    let condition := if c = 0 then Condition.regular else .opened
    let monitored := q.monitor.take p s.clock s.params.moveHold
    let others := q.ring.filter fun x => x.sequence ≠ seq
    let old := q.last.map Prod.fst
    let applied := fun (records : List (Nat × QuoteRecord)) => { s with
      intake := { s.intake with queue := rest }
      store := { s.store with records := records }
      counters :=
        if p % (64 / q.grid) = 0 then s.counters
        else { s.counters with offGrid := min 65535 (s.counters.offGrid + 1) }
      board := { s.board with dirty := markCells s.board.dirty q.cells }
      desk := s.desk.touch r (lastChanged old (some p) monitored.2) }
    ∃ t tick reference, exec .classifierTake s = .next t ∧
      t.record? r = some { q with
        tick := tick
        reference := reference
        last := some (p, s.store.floor)
        opening := if q.opening = none ∨ c = 1 then some p else q.opening
        high := some (max p (q.high.getD p))
        low := some (min p (q.low.getD p))
        volume := min 4294967295 (q.volume + v)
        ring := (if 4 ≤ others.length then others.drop 1 else others) ++ [⟨seq, p, v, condition⟩]
        traded := true
        monitor := monitored.1 } ∧
      (∀ r', r' ≠ r → t.record? r' = s.record? r') ∧
      (∀ before, (old = some before ∨ (old = none ∧ q.prevClose = some before)) →
        (before < p → tick = .up ∧ reference = some before) ∧ (p < before → tick = .down ∧ reference = some before)) ∧
      (old = none → q.prevClose = none ∨ q.prevClose = some p → tick = .noTick ∧ reference = q.reference) ∧
      (old = some p → reference = q.reference ∧ (q.tick = .up ∨ q.tick = .zeroPlus → tick = .zeroPlus) ∧
        (q.tick = .down ∨ q.tick = .zeroMinus → tick = .zeroMinus) ∧ (q.tick = .noTick → tick = .noTick)) ∧
      t = if v < 100 then applied t.store.records
          else (applied t.store.records).offer (q.maskA || s.params.scopeAll) q.maskB
            (.print q.code p q.grid v condition [seq])

/-- A CANCEL (R41 to R44): found, its print leaves the ring and its volume leaves day volume, and last reverts when it was the
newest regular print; not found, the message's volume leaves day volume; cells marked, and the tapes told in each case. -/
def Obligations.CancelCorrectsRecordAndTapes : Prop :=
  ∀ (code : Code) (cancelled p v seq r : Nat) (marked : Bool) (q : QuoteRecord) (rest : List IntakeMessage) (s : State),
    s.classifies ⟨seq, .cancel code cancelled p v, marked⟩ rest → s.finds code r q → wellFormedCode code = true →
    isPrice p = true → isVolume v = true → cancelled ≤ 4095 → ringSound q.ring →
    let told := fun (record : QuoteRecord) (withdrawn : Nat) (desk : Desk) =>
      (State.setRecord
        { s with
          intake := { s.intake with queue := rest }
          board := { s.board with dirty := markCells s.board.dirty q.cells }
          desk := desk }
        r record).cancel (q.maskA || s.params.scopeAll) q.maskB q.code cancelled p q.grid withdrawn
    ((∀ x ∈ q.ring, x.sequence ≠ cancelled) → exec .classifierTake s = .next
      (told { q with volume := q.volume - v } v s.desk)) ∧
    (∀ older x newer, q.ring = older ++ x :: newer → x.sequence = cancelled →
      let kept := { q with ring := older ++ newer, volume := q.volume - x.volume }
      (x.condition = .sld ∨ (∃ y ∈ newer, y.condition ≠ .sld) →
        exec .classifierTake s = .next (told kept x.volume s.desk)) ∧
      (x.condition ≠ .sld → (∀ y ∈ newer, y.condition = .sld) → (∀ y ∈ older, y.condition = .sld) →
        exec .classifierTake s = .next (told { kept with last := none, tick := .noTick, reference := none } x.volume
          (s.desk.touch r (lastChanged (q.last.map Prod.fst) none false)))) ∧
      (x.condition ≠ .sld → (∀ y ∈ newer, y.condition = .sld) → ∀ before y between, older = before ++ y :: between →
        y.condition ≠ .sld → (∀ z ∈ between, z.condition = .sld) → ∀ last time, q.last = some (last, time) →
        exec .classifierTake s = .next (told
          { kept with last := some (y.price, time), tick := .noTick, reference := none } x.volume
          (s.desk.touch r (lastChanged (some last) (some y.price) false)))))

/-- A PRINT taken as SLD (R35, R38, R39) moves day volume and the ring alone, its cells marked, its item offered as SLD, with no
mark and no alert. QUOTE (R40), HALT (R45, R46), RESUME (R47) and FIGURES (R48) are applied to the record their code names. -/
def Obligations.RecordMessagesApply : Prop :=
  (∀ (code : Code) (p v c seq r : Nat) (marked : Bool) (q : QuoteRecord) (rest : List IntakeMessage) (s : State),
     s.classifies ⟨seq, .print code p v c, marked⟩ rest → s.finds code r q → wellFormedCode code = true →
     isPrice p = true → isVolume v = true → c ≤ 2 → (c = 2 ∨ q.halted ≠ none) →
     let others := q.ring.filter fun x => x.sequence ≠ seq
     let applied := State.setRecord
       { s with
         intake := { s.intake with queue := rest }
         counters :=
           if p % (64 / q.grid) = 0 then s.counters
           else { s.counters with offGrid := min 65535 (s.counters.offGrid + 1) }
         board := { s.board with dirty := markCells s.board.dirty q.cells } }
       r { q with
         volume := min 4294967295 (q.volume + v)
         ring := (if 4 ≤ others.length then others.drop 1 else others) ++ [⟨seq, p, v, .sld⟩] }
     exec .classifierTake s = .next
       (if v < 100 then applied
        else applied.offer (q.maskA || s.params.scopeAll) q.maskB (.print q.code p q.grid v .sld [seq]))) ∧
  (∀ (code : Code) (seq r n prevClose : Nat) (opening high low volume : Option Nat) (bid ask : Option (Nat × Nat))
     (reason : HaltReason) (marked : Bool) (q : QuoteRecord) (m : MarketMsg) (rest : List IntakeMessage) (s : State),
     s.classifies ⟨seq, m, marked⟩ rest → s.finds code r q → fieldsSound m = true →
     let taken := { s with intake := { s.intake with queue := rest } }
     let shown := { taken with board := { s.board with dirty := markCells s.board.dirty q.cells } }
     let told := fun (why : AlertReason) =>
       { shown with desk := s.desk.touch r (alertOf why (q.last.map Prod.fst)) }
     let baseline :=
       match q.last, q.prevClose with
       | some (last, _), _ => some (last * 256)
       | none, some close => some (close * 256)
       | none, none => q.monitor.baseline
     (m = .quote code bid ask →
       exec .classifierTake s = .next (taken.setRecord r { q with bid := bid, ask := ask })) ∧
     (m = .halt code n → reasonOf n = some reason → q.halted = none → exec .classifierTake s = .next
       (((told .halt).setRecord r { q with halted := some reason, monitor := { q.monitor with
         state := .calm, count := 0, direction := none, hold := none } }).offer q.maskA q.maskB (.halted q.code reason))) ∧
     (m = .halt code n → reasonOf n = some reason → q.halted ≠ none →
       exec .classifierTake s = .next (taken.setRecord r { q with halted := some reason })) ∧
     (m = .resume code → q.halted ≠ none → exec .classifierTake s = .next
       (((told .resume).setRecord r { q with halted := none, monitor := { q.monitor with baseline := baseline } }).offer
         q.maskA q.maskB (.resumed q.code))) ∧
     (m = .resume code → q.halted = none → exec .classifierTake s = .next taken) ∧
     (m = .figures code prevClose opening high low volume → exec .classifierTake s = .next (shown.setRecord r { q with
       prevClose := some prevClose
       opening := opening.or q.opening
       high := high.or q.high
       low := low.or q.low
       volume := volume.getD q.volume
       monitor :=
         if q.traded then q.monitor else { q.monitor with baseline := some (prevClose * 256) } })))

/-- SESSION (R49), TIME (R54), NOTICE (R93) and DAY START (R50): the session set and its notice offered to both tapes, floor
time set and its seconds counted from now, the text cut to 32 characters and offered, the walk begun at record 0. -/
def Obligations.MarketWideMessagesApply : Prop :=
  ∀ (seq n hours minutes seconds : Nat) (text : Text) (marked : Bool) (m : MarketMsg) (rest : List IntakeMessage) (s : State),
    s.classifies ⟨seq, m, marked⟩ rest →
    let taken := { s with intake := { s.intake with queue := rest } }
    let inSession := fun (session : Session) => { taken with store := { s.store with session := session } }
    (m = .session 0 → exec .classifierTake s = .next ((inSession .opened).offer true true .sessionOpen)) ∧
    (m = .session 1 → exec .classifierTake s = .next ((inSession .closed).offer true true .sessionClosed)) ∧
    (m = .session n → 1 < n → exec .classifierTake s = .next
      { taken with counters := { s.counters with malformed := min 65535 (s.counters.malformed + 1) } }) ∧
    (m = .time hours minutes seconds → hours ≤ 23 → minutes ≤ 59 → seconds ≤ 59 → exec .classifierTake s = .next
      { taken with store := { s.store with floor := ⟨hours, minutes, seconds⟩, secondAt := s.clock + 1000#32 } }) ∧
    (m = .notice text → exec .classifierTake s = .next (taken.offer true true (.notice (text.take 32)))) ∧
    (m = .dayStart → s.store.session = .closed → exec .classifierTake s = .next
      { taken with store := { s.store with session := .preOpen, walk := some 0 } })

/-! ### The move monitor -/

/-- R60 to R63 and R65, Table 3-2: the monitor on a regular print with the baseline present, its direction and hold deadline
set on entering ACTIVE (R64) and absent again in CALM; with T 0 it stays CALM and the baseline tracks. With the baseline absent
the print sets it and nothing else moves (R58). -/
def Obligations.MonitorFollowsTable : Prop :=
  (∀ (m : Monitor) (p b hold : Nat) (now : Reading), m.baseline = some b → 1 ≤ m.settings.n →
     let difference := (p : Int) * 256 - (b : Int)
     let dev := difference.natAbs / 256
     let moved := some ((b : Int) + Int.tdiv difference (2 ^ m.settings.k)).toNat
     let calm := { m with state := .calm, count := 0, direction := none, hold := none }
     let active := { m with
       state := .active
       count := 0
       direction := some (if 0 < difference then Direction.up else .down)
       hold := some (now + BitVec.ofNat 32 (hold * 60000)) }
     let after := m.take p now hold
     (m.settings.t = 0 → after = ({ calm with baseline := moved }, false)) ∧
     (1 ≤ m.settings.t → m.state = .calm →
       (dev < m.settings.t → after = ({ m with count := 0, baseline := moved }, false)) ∧
       (m.settings.t ≤ dev → 2 ≤ m.settings.n → after = ({ m with state := .arming, count := 1, baseline := moved }, false)) ∧
       (m.settings.t ≤ dev → m.settings.n = 1 → after = (active, true))) ∧
     (1 ≤ m.settings.t → m.state = .arming →
       (dev < m.settings.t → after = ({ m with state := .calm, count := 0, baseline := moved }, false)) ∧
       (m.settings.t ≤ dev → m.count + 1 ≠ m.settings.n → after = ({ m with count := m.count + 1, baseline := moved }, false)) ∧
       (m.settings.t ≤ dev → m.count + 1 = m.settings.n → after = (active, true))) ∧
     (1 ≤ m.settings.t → m.state = .active →
       (m.settings.t - m.settings.h ≤ dev → after = ({ m with count := 0 }, false)) ∧
       (dev < m.settings.t - m.settings.h → 2 ≤ m.settings.n → after = ({ m with state := .releasing, count := 1 }, false)) ∧
       (dev < m.settings.t - m.settings.h → m.settings.n = 1 → after = (calm, false))) ∧
     (1 ≤ m.settings.t → m.state = .releasing →
       (m.settings.t - m.settings.h ≤ dev → after = ({ m with state := .active, count := 0 }, false)) ∧
       (dev < m.settings.t - m.settings.h → m.count + 1 ≠ m.settings.n → after = ({ m with count := m.count + 1 }, false)) ∧
       (dev < m.settings.t - m.settings.h → m.count + 1 = m.settings.n → after = (calm, false)))) ∧
  (∀ (m : Monitor) (p hold : Nat) (now : Reading), m.baseline = none →
     m.take p now hold = ({ m with baseline := some (p * 256) }, false))

/-! ### Watch entries told of a change -/

/-- What an application does to the watch entries of its record at one station (R37, R45, R47, R66, R154, R156, R157): a DETACHED
station, and one with no entry for the record, is not touched; elsewhere the entry is marked. A change of last fires the level
crossed once, ABOVE or BELOW standing before MOVE; an alert of a given reason and price is raised, or none. The alert replaces
the entry's earlier one in its place or joins the tail. An entry marked again while its line is being sent is remembered with the
line (R154), whatever the event that marks it, and nothing else of the desk controller changes. -/
def Obligations.ChangeOfLastMarksAndAlerts : Prop :=
  (∀ (r n : Nat) (old new price : Option Nat) (why : AlertReason) (moved : Bool) (st : Station)
     (before later : List WatchEntry) (e : WatchEntry) (d : Desk), d.stations[n]? = some st →
     st.watch = before ++ e :: later → e.record = r → (∀ x ∈ before ++ later, x.record ≠ r) → st.presence ≠ .detached →
     let above := ∃ a o p, e.above = some a ∧ old = some o ∧ new = some p ∧ o < a ∧ a ≤ p
     let below := ∃ b o p, e.below = some b ∧ old = some o ∧ new = some p ∧ b < o ∧ p ≤ b
     let alerted := fun (why : AlertReason) (price : Option Nat) =>
       let alert : Alert := { record := r, reason := why, price := price }
       if ∃ x ∈ st.alerts, x.record = r then st.alerts.map fun x => if x.record = r then alert else x
       else st.alerts ++ [alert]
     let told := fun (f : WatchEntry → WatchEntry × Option Alert) (entry : WatchEntry) (alerts : List Alert) =>
       (d.touch r f).stations[n]? =
         some { st with watch := before ++ { entry with pending := true } :: later, alerts := alerts }
     let changed := lastChanged old new moved
     (above → told changed { e with above := none } (alerted .above new)) ∧
     (¬ above → below → told changed { e with below := none } (alerted .below new)) ∧
     (¬ above → ¬ below → moved = true → e.move = true → told changed e (alerted .move new)) ∧
     (¬ above → ¬ below → moved = false ∨ e.move = false → told changed e st.alerts) ∧
     told (alertOf why price) e (alerted why price) ∧ told noAlert e st.alerts) ∧
  (∀ (r n : Nat) (f : WatchEntry → WatchEntry × Option Alert) (st : Station) (d : Desk), d.stations[n]? = some st →
     (st.presence = .detached ∨ ∀ x ∈ st.watch, x.record ≠ r) → (d.touch r f).stations[n]? = some st) ∧
  (∀ (r : Nat) (f : WatchEntry → WatchEntry × Option Alert) (d : Desk),
     d.touch r f = { d with stations := (d.touch r f).stations, transaction := (d.touch r f).transaction } ∧
       (d.transaction = none → (d.touch r f).transaction = none)) ∧
  (∀ (r r' : Nat) (f : WatchEntry → WatchEntry × Option Alert) (marked : Bool) (u : Transaction) (l : Line) (d : Desk),
     d.transaction = some u →
     (u.output = .line l → l.source = .entry r' marked → (d.touch r f).transaction =
       some { u with output := .line { l with source := .entry r' (marked || decide (r' = r)) } }) ∧
     ((∀ line n b, u.output = .line line → line.source ≠ .entry n b) → (d.touch r f).transaction = some u))

/-! ### The walk, floor time, the move hold -/

/-- The DAY START walk (R50 to R53): each step reaches the next occupied record in ascending order and changes it as R51
gives, its cells marked; when none is left the walk completes, every pending mark is cleared, and a DRAINING operation with
no marked message left is WORKING. A desk request held for a lookup is then served, unless lookups stay stopped by that operation
(R3, R128). That the walk is held as the number it reaches next, and when the request is served, are the model's choices
(assumptions 38 and 22). -/
def Obligations.WalkReachesEveryRecord : Prop :=
  ∀ (start r : Nat) (q : QuoteRecord) (s : State), s.store.walk = some start → s.recordsTabled →
    let close := (q.last.map Prod.fst).or q.prevClose
    let completed := { s with
      store := { s.store with walk := none }
      desk := { s.desk with stations := s.desk.stations.map fun st =>
        { st with watch := st.watch.map fun e => { e with pending := false } } }
      directory :=
        match s.directory.operation with
        | .draining work held =>
          if s.intake.holdsMarked then s.directory else { s.directory with operation := .working work held }
        | _ => s.directory }
    (start ≤ r → s.record? r = some q → (∀ r', start ≤ r' → r' < r → s.record? r' = none) →
      ∃ t, exec .dayStartWalkStep s = .next t ∧
        t = { s with
          store := { s.store with records := t.store.records, walk := some (r + 1) }
          board := { s.board with dirty := markCells s.board.dirty q.cells } } ∧
        t.record? r = some { q with
          prevClose := close, last := none, reference := none, opening := none, high := none, low := none, volume := 0,
          tick := .noTick, ring := [], traded := false, halted := none,
          monitor := ⟨q.monitor.settings, .calm, 0, close.map (· * 256), none, none⟩ } ∧
        (∀ r', r' ≠ r → t.record? r' = s.record? r')) ∧
    ((∀ r', start ≤ r' → s.record? r' = none) →
      (s.noRequestHeld ∨ completed.directory.isWorking = true →
        exec .dayStartWalkCompletion s = .next completed) ∧
      (completed.directory.isWorking = false → ∀ (u : Transaction) (request : LookupRequest),
        s.desk.transaction = some u → u.held = some request →
        exec .dayStartWalkCompletion s = .next (completed.serveLookup u request)))

/-- Floor time advances a second each 1,000 ms and passes from 23:59:59 to 00:00:00 (R54). At a hold deadline an ACTIVE
or RELEASING monitor is CALM with its baseline on last or previous close, the cells marked, the watch entries marked
with no alert (R66). An event whose condition does not hold changes nothing (assumption 6). -/
def Obligations.FloorTimeAndHoldsExpire : Prop :=
  ∀ (r : Nat) (q : QuoteRecord) (s : State),
    (reached s.clock s.store.secondAt = true → ∃ t, exec .floorTimeAdvance s = .next t ∧
      t = { s with store := { s.store with floor := t.store.floor, secondAt := s.store.secondAt + 1000#32 } } ∧
      (s.store.floor.hours ≤ 23 → s.store.floor.minutes ≤ 59 → s.store.floor.seconds ≤ 59 →
        t.store.floor.hours ≤ 23 ∧ t.store.floor.minutes ≤ 59 ∧ t.store.floor.seconds ≤ 59 ∧
        t.store.floor.hours * 3600 + t.store.floor.minutes * 60 + t.store.floor.seconds =
          (s.store.floor.hours * 3600 + s.store.floor.minutes * 60 + s.store.floor.seconds + 1) % 86400)) ∧
    (reached s.clock s.store.secondAt = false → exec .floorTimeAdvance s = .next s) ∧
    (s.record? r = some q → q.monitor.state = .active ∨ q.monitor.state = .releasing →
      (∀ at_, q.monitor.hold = some at_ → reached s.clock at_ = true → exec (.holdExpiry r) s = .next (State.setRecord
        { s with
          board := { s.board with dirty := markCells s.board.dirty q.cells }
          desk := s.desk.touch r noAlert }
        r { q with monitor := { q.monitor with
          state := .calm
          count := 0
          direction := none
          hold := none
          baseline :=
            match q.last, q.prevClose with
            | some (last, _), _ => some (last * 256)
            | none, some close => some (close * 256)
            | none, none => q.monitor.baseline } })) ∧
      (∀ at_, q.monitor.hold = some at_ → reached s.clock at_ = false → exec (.holdExpiry r) s = .next s))

/-! ### Tapes -/

/-- The completion of the text on a ribbon (R78, R80 to R83): with items queued after an item's text, the level is decided from
the head's lateness, and its notice or the head item starts; after a level notice the head starts without a decision; with
none queued the ribbon is IDLE. Each text's completion is its ribbon time after its start. And the text of every item and level
notice, on the item's grid, its volume group under the block threshold and its dollars cut by the level (R23, R84 to R86). -/
def Obligations.RibbonStartsNextText : Prop :=
  (∀ (id : TapeId) (text : Text) (at_ : Reading) (head : Item) (rest : List Item) (s : State), reached s.clock at_ = true →
     let old := s.tape id
     let rate := s.params.rate id
     let doneAt := fun (shown : Text) => s.clock + BitVec.ofNat 32 ((shown.length * 1000 + rate - 1) / rate)
     let started := fun (t : Tape) =>
       let shown := itemText t.level s.params.blockThreshold t.shown head.kind
       { t with
         queue := if t.omitted = 0 then rest else rest ++ [⟨s.clock, .omitted t.omitted⟩]
         omitted := 0
         ribbon := Ribbon.item shown (doneAt shown)
         shown := shownAfterItem t.level t.shown head.kind }
     let late := min 65535 ((s.clock - head.stamp).toNat / 1000)
     let target :=
       if s.params.enter3 ≤ late then 3 else if s.params.enter2 ≤ late then 2 else if s.params.enter1 ≤ late then 1 else 0
     let leave := if old.level = 1 then s.params.leave1 else if old.level = 2 then s.params.leave2 else s.params.leave3
     let level := if old.level < target then target else if 1 ≤ old.level ∧ late < leave then old.level - 1 else old.level
     (old.ribbon = .item text at_ → old.queue = [] →
       exec (.ribbonCompletion id) s = .next (s.setTape id { old with ribbon := .idle })) ∧
     (old.ribbon = .item text at_ → old.queue = head :: rest → level = old.level →
       exec (.ribbonCompletion id) s = .next (s.setTape id (started old))) ∧
     (old.ribbon = .item text at_ → old.queue = head :: rest → level ≠ old.level →
       exec (.ribbonCompletion id) s = .next (s.setTape id { old with
         level := level
         slot := some { level := level, stamp := s.clock }
         shown := if 2 ≤ level ∧ old.level ≤ 1 then [] else old.shown
         ribbon := .notice (levelText level) (doneAt (levelText level)) })) ∧
     (old.ribbon = .notice text at_ → old.queue = [] →
       exec (.ribbonCompletion id) s = .next (s.setTape id { old with slot := none, ribbon := .idle })) ∧
     (old.ribbon = .notice text at_ → old.queue = head :: rest →
       exec (.ribbonCompletion id) s = .next (s.setTape id (started { old with slot := none })))) ∧
  (∀ (level threshold grid price volume count : Nat) (shown : List Code) (code : Code) (condition : Condition)
     (reason : HaltReason) (text : Text) (sequences : List Nat),
     let hundreds := volume / 100
     let amount := price / (64 / grid) * (64 / grid)
     let fraction := decimal (amount % 64 / Nat.gcd (amount % 64) 64) ++ ['/'] ++ decimal (64 / Nat.gcd (amount % 64) 64)
     let shownWith := fun (dollars : Text) =>
       if amount % 64 = 0 then dollars
       else if amount / 64 = 0 then fraction
       else dollars ++ [' '] ++ fraction
     let volumeShown :=
       if hundreds < 2 ∨ (level ≠ 0 ∧ hundreds < threshold) then []
       else if hundreds < 100 then [' '] ++ decimal hundreds ++ ['s']
       else [' '] ++ decimal (hundreds * 100) ++ "SHS".toList
     let marker :=
       match condition with
       | .regular => []
       | .opened => " OPD".toList
       | .sld => " SLD".toList
     let why :=
       match reason with
       | .news => "NEWS".toList
       | .imbalance => "IMBALANCE".toList
       | .other => "OTHER".toList
     let itemShown := itemText level threshold shown
     let end_ := "  ".toList
     itemShown (.print code price grid volume condition sequences) = code ++ volumeShown ++ [' '] ++
       (if 2 ≤ level ∧ code ∈ shown then shownWith [Char.ofNat (48 + amount / 64 % 10)]
        else shownWith (decimal (amount / 64))) ++ marker ++ end_ ∧
     shownAfterItem level shown (.print code price grid volume condition sequences) =
       (if 2 ≤ level ∧ code ∉ shown ∧ shown.length < 1024 then shown ++ [code] else shown) ∧
     itemShown (.cxl code price grid) = code ++ " CXL ".toList ++ shownWith (decimal (amount / 64)) ++ end_ ∧
     itemShown (.halted code reason) = code ++ " HALTED ".toList ++ why ++ end_ ∧
     itemShown (.resumed code) = code ++ " RESUMED".toList ++ end_ ∧
     itemShown (.notice text) = text ++ end_ ∧
     itemShown .sessionOpen = "MARKET OPEN".toList ++ end_ ∧ itemShown .sessionClosed = "MARKET CLOSED".toList ++ end_ ∧
     itemShown .feedInterrupted = "FEED INTERRUPTED".toList ++ end_ ∧
     itemShown .feedRestored = "FEED RESTORED".toList ++ end_ ∧
     itemShown (.omitted count) = "OMITTED ".toList ++ decimal count ++ end_ ∧
     levelText 0 = "TAPE NORMAL".toList ++ end_ ∧ levelText 1 = "VOLUME OMITTED".toList ++ end_ ∧
     levelText 2 = "DIGITS DELETED".toList ++ end_ ∧ levelText 3 = "REPEATS MERGED".toList ++ end_)

/-- An offer to a tape (R76, R77, R87): a REGULAR print merges into the newest queued print of its code at level 3; with the
ribbon busy every other item, a print that fails the merge test among them, joins a queue of fewer than 127, and is otherwise
omitted, counted in the queued OMITTED notice or in the omitted count, and in the unit's omission counter; with the ribbon IDLE
at level 0 it starts at once, and above level 0 the level falls by one and its notice starts, the item waiting (R80, R82, R83). A
cancel hand-off (R88): the newest queued print of the code that holds the sequence number shrinks, or leaves when its list is
then empty, with R78 applied to its departure; when none is found a CXL is offered. That every copy of the number leaves the list
is the model's choice (assumption 39). An offer and a cancel hand-off by tape mask reach the tapes named, tape A first, and no
other. -/
def Obligations.OffersAndCancelsChangeQueue : Prop :=
  (∀ (id : TapeId) (kind : ItemKind) (code : Code) (p g g' v v' q : Nat) (seqs : List Nat) (stamp : Reading)
     (before later : List Item) (n : Nat) (s : State),
     let old := s.tape id
     let counted := fun (x : State) =>
       match id with
       | .a => { x with counters := { x.counters with omissionsA := min 65535 (s.counters.omissionsA + 1) } }
       | .b => { x with counters := { x.counters with omissionsB := min 65535 (s.counters.omissionsB + 1) } }
     let doneAt := fun (shown : Text) =>
       s.clock + BitVec.ofNat 32 ((shown.length * 1000 + s.params.rate id - 1) / s.params.rate id)
     let noPrint := fun (c : Code) (items : List Item) => ∀ i ∈ items, ∀ p g v o l, i.kind ≠ .print c p g v o l
     let separate := old.level ≠ 3 ∨ (∀ c p g v o l, kind ≠ .print c p g v o l) ∨
       ∃ c p g v o l, kind = .print c p g v o l ∧ (noPrint c old.queue ∨
         ∃ front st p' g' v' o' l' back, old.queue = front ++ ⟨st, .print c p' g' v' o' l'⟩ :: back ∧ noPrint c back ∧
           (p' ≠ p ∨ o ≠ .regular ∨ o' ≠ .regular ∨ 8 ≤ l'.length))
     (old.level = 3 → old.queue = before ++ ⟨stamp, .print code p g' v' .regular seqs⟩ :: later → seqs.length < 8 →
       (∀ i ∈ later, ∀ p g v o l, i.kind ≠ .print code p g v o l) →
       s.offerTo id (.print code p g v .regular [q]) = s.setTape id { old with queue :=
         before ++ ⟨stamp, .print code p g' (min 16777215 (v' + v)) .regular (seqs ++ [q])⟩ :: later }) ∧
     (separate → old.ribbon ≠ .idle → old.queue.length < 127 →
       s.offerTo id kind = s.setTape id { old with queue := old.queue ++ [⟨s.clock, kind⟩] }) ∧
     (separate → old.ribbon ≠ .idle → 127 ≤ old.queue.length →
       ((∀ i ∈ old.queue, ∀ k, i.kind ≠ .omitted k) →
         s.offerTo id kind = counted (s.setTape id { old with omitted := min 999 (old.omitted + 1) })) ∧
       (old.queue = before ++ ⟨stamp, .omitted n⟩ :: later → (∀ i ∈ before, ∀ k, i.kind ≠ .omitted k) →
         s.offerTo id kind = counted (s.setTape id { old with queue :=
           before ++ ⟨stamp, .omitted (min 999 (n + 1))⟩ :: later }))) ∧
     (old.ribbon = .idle → old.queue = [] → old.level = 0 → old.omitted = 0 → 1 ≤ s.params.enter1 → 1 ≤ s.params.enter2 →
       1 ≤ s.params.enter3 →
       let shown := itemText 0 s.params.blockThreshold old.shown kind
       s.offerTo id kind = s.setTape id { old with
         ribbon := .item shown (doneAt shown)
         shown := shownAfterItem 0 old.shown kind }) ∧
     (old.ribbon = .idle → old.queue = [] → 1 ≤ old.level → old.level ≤ 3 → s.params.ordered →
       s.offerTo id kind = s.setTape id { old with
         queue := [⟨s.clock, kind⟩]
         level := old.level - 1
         slot := some { level := old.level - 1, stamp := s.clock }
         ribbon := .notice (levelText (old.level - 1)) (doneAt (levelText (old.level - 1))) })) ∧
  (∀ (id : TapeId) (code : Code) (q p g v p' g' v' : Nat) (o : Condition) (seqs : List Nat) (stamp : Reading)
     (before later : List Item) (s : State),
     let old := s.tape id
     let qualifies := fun (i : Item) => ∃ p g v o l, i.kind = .print code p g v o l ∧ q ∈ l
     let kept := seqs.filter fun x => x ≠ q
     ((∀ i ∈ old.queue, ¬ qualifies i) → s.cancelOn id code q p g v = s.offerTo id (.cxl code p g)) ∧
     (old.queue = before ++ ⟨stamp, .print code p' g' v' o seqs⟩ :: later → q ∈ seqs → (∀ i ∈ later, ¬ qualifies i) →
       (kept ≠ [] → s.cancelOn id code q p g v = s.setTape id { old with queue :=
         before ++ ⟨stamp, .print code p' g' (v' - v) o kept⟩ :: later }) ∧
       (kept = [] → s.cancelOn id code q p g v = s.setTape id { old with
         queue := if old.omitted = 0 then before ++ later else before ++ later ++ [⟨s.clock, .omitted old.omitted⟩]
         omitted := 0 }))) ∧
  (∀ (kind : ItemKind) (code : Code) (q p g v : Nat) (s : State),
     s.offer true true kind = (s.offerTo .a kind).offerTo .b kind ∧ s.offer true false kind = s.offerTo .a kind ∧
       s.offer false true kind = s.offerTo .b kind ∧ s.offer false false kind = s ∧
       (s.offerTo .a kind).tapeB = s.tapeB ∧ (s.offerTo .b kind).tapeA = s.tapeA ∧
       s.cancel true true code q p g v = (s.cancelOn .a code q p g v).cancelOn .b code q p g v ∧
       s.cancel true false code q p g v = s.cancelOn .a code q p g v ∧
       s.cancel false true code q p g v = s.cancelOn .b code q p g v ∧ s.cancel false false code q p g v = s ∧
       (s.cancelOn .a code q p g v).tapeB = s.tapeB ∧ (s.cancelOn .b code q p g v).tapeA = s.tapeA)

/-! ### Boards -/

/-- BLOCK_ASSEMBLY (R103, R110): the cells passed over at the head, those of OUT panels, are dropped; the next cell's panel gets
a block of its cells in queue order up to the block size, rendered and given its deadline; the other cells keep their order.
Nothing is assembled unless the board is RUNNING with no block in flight. A PROBING panel with no assigned cells is sent no block:
its cells at the head are passed over with those of OUT panels. That these keep their places or leave the queue, by a free value,
is the model's reading (assumption 40). What marking a cell does (R101): a queued cell keeps its place, another joins the
tail, and several join in the order given. And the block on BOARD OUT (section 10.5): the 34 characters of a cell update field by
field, the block from its start character to its check, and the check, the sum of the characters from panel to the end of the last
update modulo 65,536. How many dashes a field shows is a free value, and the code of a character of text other than letters and
space is the model's (assumptions 10 and 15). -/
def Obligations.BlocksGatherOnePanel : Prop :=
  (∀ (passed rest : List Nat) (c : Nat) (s : State), s.board.lawful → 1 ≤ s.params.blockSize →
     let cells := (c :: rest.filter fun x => x / 64 = c / 64).take s.params.blockSize
     let updates := cells.map s.cellUpdate
     let out := fun (x : Nat) => s.board.panelState (x / 64) = .out
     let unprobed := fun (x : Nat) => s.board.panelState (x / 64) = .probing ∧ ∀ e ∈ s.board.cellMap, e.1 / 64 ≠ x / 64
     (∀ x, out x → x ∉ s.board.waiting passed) ∧
     (∀ x ∈ passed, unprobed x → (x ∈ s.board.waiting passed ↔ Config.unprobedCellWaits = true)) ∧
     (s.board.waiting passed).Sublist passed ∧
     (s.board.pause = .running → s.board.block = none → s.board.dirty = passed ++ c :: rest →
       (∀ x ∈ passed, out x ∨ unprobed x) → ¬ out c → ¬ unprobed c →
       exec .blockAssembly s = .next { s with board := { s.board with
         dirty := s.board.waiting passed ++ rest.filter fun x => x ∉ cells
         block := some
           { panel := c / 64, cells := cells, updates := updates, check := blockCheck (c / 64) updates,
             deadline := s.clock + BitVec.ofNat 32 s.params.panelWindow } } }) ∧
     (s.board.pause = .running → s.board.block = none → (∀ x ∈ s.board.dirty, out x ∨ unprobed x) →
       exec .blockAssembly s = .next { s with board := { s.board with dirty := s.board.waiting s.board.dirty } }) ∧
     (s.board.pause ≠ .running ∨ s.board.block ≠ none → exec .blockAssembly s = .next s)) ∧
  (∀ (dirty cells : List Nat) (cell : Nat) (b : Board),
     (cell ∈ dirty → markCell dirty cell = dirty) ∧ (cell ∉ dirty → markCell dirty cell = dirty ++ [cell]) ∧
       markCells dirty [] = dirty ∧ markCells dirty (cell :: cells) = markCells (markCell dirty cell) cells ∧
       (cells.Nodup → markCells dirty cells = dirty ++ cells.filter fun x => x ∉ dirty) ∧
       b.mark cells = { b with dirty := markCells b.dirty cells }) ∧
  (∀ u : CellUpdate,
     let characters := updateCharacters u
     let shown := fun (width : Nat) (dashes : Text) (field : CellField) =>
       let text :=
         match field with
         | .empty => []
         | .shown text => text
         | .dashes sign => sign ++ dashes
       ((text ++ List.replicate width ' ').take width).map boardCharacter
     let set := fun (bit : Bool) (value : Nat) => if bit then value else 0
     characters.length = 34 ∧ fieldOf characters 0 1 = u.cell % 256 ∧
       slice characters 1 5 = (u.symbol.map (fun c => BitVec.ofNat 8 c.toNat) ++ List.replicate 5 32#8).take 5 ∧
       slice characters 6 11 = shown 11 Config.priceDashes u.price ∧
       slice characters 17 12 = shown 12 Config.changeDashes u.change ∧ boardCharacter ' ' = 32#8 ∧
       fieldOf characters 29 3 = u.volume % 16777216 ∧
       fieldOf characters 32 1 =
         (match u.tick with
         | .noTick => 0
         | .up => 1
         | .down => 2
         | .zeroPlus => 3
         | .zeroMinus => 4) ∧
       fieldOf characters 33 1 = set u.attributes.blank 1 + set u.attributes.halted 2 + set u.attributes.fast 4 +
         set u.attributes.stale 8 + set u.attributes.overflow 16) ∧
  (∀ (i : Nat) (u : CellUpdate) (b : Block), b.panel < 256 → b.updates.length < 256 →
     b.characters.length = 5 + 34 * b.updates.length ∧ fieldOf b.characters 0 1 = 170 ∧ fieldOf b.characters 1 1 = b.panel ∧
       fieldOf b.characters 2 1 = b.updates.length ∧
       (b.updates[i]? = some u → slice b.characters (3 + 34 * i) 34 = updateCharacters u) ∧
       (b.check = blockCheck b.panel b.updates → fieldOf b.characters (3 + 34 * b.updates.length) 2 = b.check) ∧
       blockCheck b.panel b.updates =
         (b.panel + b.updates.length + (b.updates.map fun u => ((updateCharacters u).map BitVec.toNat).sum).sum) % 65536)

/-- What a cell's update holds (R26, R99, R100): an unassigned cell is blank; an assigned one shows its record's code, last and
change on the grid or as dashes, volume in hundreds held at 999,999, tick and attributes. -/
def Obligations.CellUpdateShowsRecord : Prop :=
  ∀ (c r : Nat) (q : QuoteRecord) (s : State),
    (tableGet s.board.cellMap c = none → s.cellUpdate c =
      { cell := c % 64, symbol := [], price := .empty, change := .empty, volume := 0, tick := .noTick,
        attributes := ⟨true, false, false, false, false⟩ }) ∧
    (tableGet s.board.cellMap c = some r → s.record? r = some q →
      let u := s.cellUpdate c
      u.cell = c % 64 ∧ u.symbol = q.code ∧ u.volume = min 999999 (q.volume / 100) ∧ u.tick = q.tick ∧
      (q.last = none → u.price = .empty ∧ u.change = .empty) ∧ (q.prevClose = none → u.change = .empty) ∧
      (∀ last time, q.last = some (last, time) →
        let p' := last / (64 / q.grid) * (64 / q.grid)
        (p' / 64 ≤ 9999 → u.price = .shown (priceText q.grid last)) ∧ (9999 < p' / 64 → u.price = .dashes []) ∧
        (∀ close, q.prevClose = some close →
          let change := (last : Int) - (close : Int)
          let m' := change.natAbs / (64 / q.grid) * (64 / q.grid)
          (m' / 64 ≤ 999 → u.change = .shown (changeText q.grid change)) ∧
          (999 < m' / 64 → u.change = .dashes (if 0 ≤ change then ['+'] else ['−'])))) ∧
      (u.attributes.blank = true ↔ q.last = none) ∧ (u.attributes.halted = true ↔ q.halted ≠ none) ∧
      (u.attributes.fast = true ↔ q.monitor.state = .active ∨ q.monitor.state = .releasing) ∧
      (u.attributes.stale = true ↔ s.feed.feed = .lost) ∧
      (u.attributes.overflow = true ↔ (∃ sign, u.price = .dashes sign) ∨ (∃ sign, u.change = .dashes sign)))

/-- The outcome of a block (R104 to R108, R110, R113): an answer with its panel, count and check is a success, one with
its panel alone a failure, as are an answer cut short after a readable panel character and the deadline; every other
answer is discarded. A success leaves the panel IN with count 0; a failure of an IN panel counts and requeues, the
eighth and any of a PROBING panel make it OUT; a PAUSING board is PAUSED. An event whose condition does not hold changes
nothing (assumption 6). -/
def Obligations.BlockOutcomesMovePanels : Prop :=
  ∀ (panel count check : Byte) (more : List Byte) (blk : Block) (p : Panel) (s : State), s.board.lawful →
    s.board.block = some blk → s.board.panels[blk.panel]? = some p →
    let after := fun (panel : Panel) (dirty : List Nat) => { s.board with
      panels := s.board.panels.set blk.panel panel
      dirty := dirty
      block := none
      pause := if s.board.pause = .pausing then .paused else s.board.pause }
    let succeeded := { s with board := after ⟨.inService, 0⟩ s.board.dirty }
    let failed := { s with
      counters := { s.counters with boardFailures := min 65535 (s.counters.boardFailures + 1) }
      board :=
        if p.state = .inService ∧ p.failures < 7 then
          after ⟨.inService, p.failures + 1⟩
            (markCells s.board.dirty (blk.cells.filter fun c => (tableGet s.board.cellMap c).isSome))
        else after ⟨.out, 8⟩ (s.board.dirty.filter fun c => c / 64 ≠ blk.panel) }
    let right := count.toNat = blk.cells.length ∧ check.toNat = blk.check % 256
    (panel.toNat = blk.panel → right → exec (.boardAnswer panel count check) s = .next succeeded) ∧
    (panel.toNat = blk.panel → ¬ right → exec (.boardAnswer panel count check) s = .next failed) ∧
    (panel.toNat ≠ blk.panel → exec (.boardAnswer panel count check) s = .next s) ∧
    (panel.toNat = blk.panel → exec (.boardAnswerGap (171#8 :: panel :: more)) s = .next failed) ∧
    exec (.boardAnswerGap []) s = .next s ∧ exec (.boardAnswerGap [171#8]) s = .next s ∧
    (panel.toNat ≠ blk.panel → exec (.boardAnswerGap (171#8 :: panel :: more)) s = .next s) ∧
    (reached s.clock blk.deadline = true → exec .blockDeadline s = .next failed) ∧
    (reached s.clock blk.deadline = false → exec .blockDeadline s = .next s)

/-! ### The desk line -/

/-- The presence scan (R120 to R122): a station whose input reads as at the previous scan and differs from what its
presence state says is attached or detached, its record set as the rules give; every other record stands; a detached
station's transaction ends with the line and the stuck deadline as R136 leaves them (FREE, or CLEARING where an expiry was
held), its suspended page is discarded, and a page it caused to wait becomes due. That such a page becomes due through its started mark, and that the next scan is 100 ms after
this one's due reading, are the model's readings (assumptions 28 and 35). -/
def Obligations.PresenceScanConfirmsChanges : Prop :=
  ∀ (reading : BitVec 16) (s : State), reached s.clock s.desk.scanAt = true → s.desk.stations.length = 16 →
    let confirmed := fun (n : Nat) (present : Bool) =>
      reading.getLsbD n = present ∧ s.desk.scanPrevious.getLsbD n = present
    let gone := fun (n : Nat) => ∃ st, s.desk.stations[n]? = some st ∧ st.presence ≠ .detached ∧ confirmed n false
    ∃ t, exec (.presenceScan reading) s = .next t ∧
      t = { s with desk := { s.desk with
        stations := t.desk.stations, line := t.desk.line, transaction := t.desk.transaction, answered := t.desk.answered,
        slot := t.desk.slot, stuckAt := t.desk.stuckAt, retryAt := t.desk.retryAt, scanPrevious := reading, scanAt := s.desk.scanAt + 100#32 } } ∧
      (∀ (n : Nat) (st : Station), s.desk.stations[n]? = some st →
        (st.presence = .detached → confirmed n true → t.desk.stations[n]? = some { st with
          presence := .attached
          watch := st.watch.map fun e => { e with pending := false }
          alerts := []
          streamDue := decide (st.mode = .stream)
          streamAt := if st.mode = .stream then some (s.clock + BitVec.ofNat 32 (st.interval * 1000)) else none
          served := false
          failedRun := 0 }) ∧
        (st.presence ≠ .detached → confirmed n false → t.desk.stations[n]? = some { st with
          presence := .detached
          watch := st.watch.map fun e => { e with pending := false }
          alerts := []
          streamDue := false
          streamAt := none
          served := false
          failedRun := 0 }) ∧
        (¬ (st.presence = .detached ∧ confirmed n true) → ¬ (st.presence ≠ .detached ∧ confirmed n false) →
          t.desk.stations[n]? = some st)) ∧
      (∀ u, s.desk.transaction = some u → gone u.station →
        t.desk.transaction = none ∧ t.desk.line = s.lineFreed.desk.line ∧ t.desk.answered = [] ∧
          t.desk.stuckAt = s.lineFreed.desk.stuckAt ∧ t.desk.retryAt = s.lineFreed.desk.retryAt) ∧
      ((∀ u, s.desk.transaction = some u → ¬ gone u.station) →
        t.desk.transaction = s.desk.transaction ∧ t.desk.line = s.desk.line ∧ t.desk.answered = s.desk.answered ∧
          t.desk.stuckAt = s.desk.stuckAt ∧ t.desk.retryAt = s.desk.retryAt) ∧
      (∀ p, s.desk.slot = some p →
        (gone p.station → t.desk.slot = none) ∧
        (¬ gone p.station → gone p.causing → t.desk.slot = some { p with started := true }) ∧
        (¬ gone p.station → ¬ gone p.causing → t.desk.slot = some p)) ∧
      (s.desk.slot = none → t.desk.slot = none)

/-- The arbiter (R123, R124, R131, R139): with the line FREE and DESK BUSY not held the first of resumption, alert delivery,
claim round and routine delivery that applies starts, claim rounds and routine deliveries alternating; with the line not
FREE or DESK BUSY held, nothing does. -/
def Obligations.ArbiterTakesFirstItem : Prop :=
  ∀ (n : Nat) (p : SuspendedPage) (st : Station) (s : State),
    let d := s.desk
    let begun := fun (d : Desk) (n : Nat) (kind : TransactionKind) (page : Page) (nextLine : Nat) =>
      { s with desk := { d with
          line := .reselecting
          transaction := some
            { station := n, kind := kind, page := some page, nextLine := nextLine, output := .nothing,
              window := some (s.clock + BitVec.ofNat 32 (s.params.answerWindow * 10)), held := none } } }
    let noAlert := ∀ st ∈ d.stations, ¬ st.alerting
    let noDue := ∀ st ∈ d.stations, ¬ st.isDue
    let claiming := { s with desk := { d with line := .claim, alternation := true, answered := [] } }
    (d.line ≠ .free ∨ d.busy = true → exec .arbiterStart s = .next s) ∧
    (d.line = .free → d.busy = false → s.stuckDue = false → d.stations.length = 16 →
      (d.slot = some p → p.started = true ∨ (∀ c, d.stations[p.causing]? = some c → ¬ c.alerting) →
        exec .arbiterStart s = .next (begun { d with slot := none } p.station (.resumption p.reply) p.page p.nextLine)) ∧
      (d.slot = some p → p.started = false → d.stations[p.causing]? = some st → st.alerting →
        exec .arbiterStart s = .next (begun { d with slot := some { p with started := true }, lastAlert := p.causing }
          p.causing .alertDelivery (.alerts 0) 0)) ∧
      (d.slot = none → firstRound d.stations d.lastAlert (fun _ st => st.alerting) n →
        exec .arbiterStart s = .next (begun { d with lastAlert := n } n .alertDelivery (.alerts 0) 0)) ∧
      (d.slot = none → noAlert → d.attn = true → d.alternation = false ∨ noDue →
        exec .arbiterStart s = .next claiming) ∧
      (d.slot = none → noAlert → d.attn = false ∨ d.alternation = true →
        firstRound d.stations d.lastRoutine (fun _ st => st.isDue) n → d.stations[n]? = some st →
        exec .arbiterStart s = .next (begun { d with lastRoutine := n, alternation := false } n .routineDelivery
          (if st.mode = .stream then .watch [] else .changes [] 0) 0)) ∧
      (d.slot = none → noAlert → d.attn = false → noDue → exec .arbiterStart s = .next s))

/-- A claim round (R125 to R127): a station that is not DETACHED claims in its slot; at the end the round is void, or selects
the highest claimant without a served mark, or with every mark cleared the highest; ABSENT claimants are ATTACHED with run 0;
the selected station's answer with DESK BUSY held starts REQUEST with the request window. -/
def Obligations.ClaimRoundSelectsHighestUnserved : Prop :=
  ∀ (n : Nat) (st : Station) (u : Transaction) (s : State), s.desk.stations.length = 16 →
    let d := s.desk
    let claims := fun (m : Nat) (x : Station) => d.stations[m]? = some x ∧ m ∈ d.answered ∧ x.presence ≠ .detached
    (d.line = .claim → d.stations[n]? = some st → st.presence ≠ .detached → n ∉ d.answered →
      exec (.slotAnswer n) s = .next { s with desk := { d with answered := d.answered ++ [n] } }) ∧
    (d.line = .claim → d.stations[n]? = some st → st.presence = .detached → exec (.slotAnswer n) s = .next s) ∧
    (d.line = .claim → (∀ m x, ¬ claims m x) → exec .claimRoundCompletion s = .next s.lineFreed) ∧
    (d.line = .claim → claims n st →
      (st.served = false ∧ ∀ m x, claims m x → n < m → x.served = true) ∨
        (∀ m x, claims m x → x.served = true ∧ m ≤ n) →
      ∃ t, exec .claimRoundCompletion s = .next t ∧
        t = { s with desk := { d with
          stations := t.desk.stations
          line := .selecting
          answered := []
          stuckAt := none
          transaction := some
            { station := n, kind := .request, page := none, nextLine := 0, output := .nothing,
              window := some (s.clock + BitVec.ofNat 32 (s.params.answerWindow * 10)), held := none } } } ∧
        ∀ (m : Nat) (x : Station), d.stations[m]? = some x → t.desk.stations[m]? = some { x with
          presence := if m ∈ d.answered ∧ x.presence = .absent then .attached else x.presence
          failedRun := if m ∈ d.answered ∧ x.presence = .absent then 0 else x.failedRun
          served := if m = n then true else if st.served then false else x.served }) ∧
    (d.line = .selecting → d.transaction = some u →
      (n = u.station → d.busy = true → exec (.answer n) s = .next { s with desk := { d with
        line := .request
        transaction := some { u with window := some (s.clock + BitVec.ofNat 32 (s.params.requestWindow * 10)) } } }) ∧
      (n ≠ u.station ∨ d.busy = false → exec (.answer n) s = .next s))

/-- Desk requests as they arrive in REQUEST (R128, R144, R146 to R148, R152): NOT READY while HELD, BAD REQUEST for an unknown
kind or mode, the page found, UNKNOWN SYMBOL, or the request held with no window while lookups are stopped; a wrong echo or
check and a frame not whole (R135, R193) are counted and answered with a CHECK ERROR page; SET MODE stores as Table 7-4 gives. A
request held so is served, when lookups resume, as its own row is with lookups not stopped (R3, R128).
That a page's fixed set is taken as its header is rendered, and that the pages of a CHECK ERROR and of an unknown kind name no kind
and no refusal names a code, are the model's readings (assumptions 17 and 23). -/
def Obligations.RequestsAreServed : Prop :=
  ∀ (code : Code) (r mode interval : Nat) (window : Option Reading) (st : Station) (u : Transaction) (s : State),
    s.awaitsRequest u → s.desk.stations[u.station]? = some st → s.desk.stations.length = 16 →
    let refused := fun (kind : Option RequestKind) (status : DeskStatus) =>
      Host.Outcome.next (s.replyPage u (.status kind status .nothing none))
    let mistaken := s.withStation u.station { st with counters := { st.counters with
      checkErrors := min 65535 (st.counters.checkErrors + 1) } }
    let checked : Host.Outcome State Fault Refusal :=
      .next (mistaken.replyPage u (.status none .checkError .nothing none))
    let within := fun (v : Transaction) => { s with desk := { s.desk with transaction := some v } }
    let waiting := fun (request : LookupRequest) => within { u with held := some request, window := none }
    let served := fun (request : LookupRequest) =>
      (within { u with held := some request, window := window }).serveLookup
        { u with held := some request, window := window } request
    (lookupCode s.directory.entries code = none →
      served (.quote code) = s.replyPage u (.status (some .quote) .unknownSymbol .nothing none) ∧
      served (.recent code) = s.replyPage u (.status (some .recent) .unknownSymbol .nothing none)) ∧
    (lookupCode s.directory.entries code = some r →
      served (.quote code) = s.replyPage u (.quote r []) ∧ served (.recent code) = s.replyPage u (.recent r [])) ∧
    exec .checkError s = checked ∧ exec .deskFrameIncomplete s = checked ∧
    (s.manager.state = .held →
      exec (.quoteRequest code) s = refused (some .quote) .notReady ∧
      exec (.recent code) s = refused (some .recent) .notReady ∧
      exec .watchPage s = refused (some .watchPage) .notReady ∧
      exec (.setMode mode interval) s = refused (some .setMode) .notReady ∧
      exec .unknownRequestKind s = refused none .notReady) ∧
    (s.manager.state = .running →
      exec .unknownRequestKind s = refused none .badRequest ∧
      exec .watchPage s = .next (s.replyPage u (.watch [])) ∧
      (2 < mode → exec (.setMode mode interval) s = refused (some .setMode) .badRequest) ∧
      (mode ≤ 2 → ∃ m st', (mode = 0 → m = .event) ∧ (mode = 1 → m = .stream) ∧ (mode = 2 → m = .quiet) ∧
        st.modeStored s.clock m (min 60 (max 1 interval)) st' ∧
        exec (.setMode mode interval) s = .next ((s.withStation u.station st').replyPage u
          (.status (some .setMode) .done (.modeStored m (min 60 (max 1 interval))) none))) ∧
      (s.directory.isWorking = true ∨ s.store.walk ≠ none →
        exec (.quoteRequest code) s = .next (waiting (.quote code)) ∧
        exec (.recent code) s = .next (waiting (.recent code))) ∧
      (s.directory.isWorking = false → s.store.walk = none →
        (lookupCode s.directory.entries code = none →
          exec (.quoteRequest code) s = refused (some .quote) .unknownSymbol ∧
          exec (.recent code) s = refused (some .recent) .unknownSymbol) ∧
        (lookupCode s.directory.entries code = some r →
          exec (.quoteRequest code) s = .next (s.replyPage u (.quote r [])) ∧
          exec (.recent code) s = .next (s.replyPage u (.recent r []))) ∧
        exec (.quoteRequest code) s = .next (served (.quote code)) ∧
        exec (.recent code) s = .next (served (.recent code))))

/-- WATCH ADD and WATCH DROP (R144, R149, R150): an entry updated in place, added at the end, or refused with LIST FULL; an
entry dropped with its mark, its alert and its lines on the station's suspended page, or NOT ON LIST; NOT READY while HELD, BAD
REQUEST for a level that is no price, and held while lookups are stopped; one so held is served as its own row is with lookups not
stopped (R128). That a refusal with no record names no code, and that a WATCH CHANGES page in the slot forgets a line it has sent
for an entry that is dropped, are the model's readings (assumptions 23 and 24). -/
def Obligations.WatchRequestsEditList : Prop :=
  ∀ (code : Code) (above below : Option Nat) (move : Bool) (r : Nat) (q : QuoteRecord) (window : Option Reading) (st : Station)
    (u : Transaction) (s : State), s.awaitsRequest u → s.desk.stations[u.station]? = some st →
    let add := Instr.watchAdd code above below move
    let refused := fun (kind : RequestKind) (status : DeskStatus) =>
      s.replyPage u (.status (some kind) status .nothing none)
    let paged := fun (x : State) (kind : RequestKind) (status : DeskStatus) (info : StatusInfo) =>
      x.replyPage u (.status (some kind) status info (some q.code))
    let within := fun (v : Transaction) => { s with desk := { s.desk with transaction := some v } }
    let waits := fun (request : LookupRequest) => within { u with held := some request, window := none }
    let served := fun (request : LookupRequest) =>
      (within { u with held := some request, window := window }).serveLookup
        { u with held := some request, window := window } request
    let priced := isPriceOption above = true ∧ isPriceOption below = true
    let stopped := s.directory.isWorking = true ∨ s.store.walk ≠ none
    (s.manager.state = .held →
      exec add s = .next (refused .watchAdd .notReady) ∧ exec (.watchDrop code) s = .next (refused .watchDrop .notReady)) ∧
    (s.manager.state = .running → ¬ priced → exec add s = .next (refused .watchAdd .badRequest)) ∧
    (s.manager.state = .running → stopped →
      (priced → exec add s = .next (waits (.watchAdd code above below move))) ∧
      exec (.watchDrop code) s = .next (waits (.watchDrop code))) ∧
    (s.manager.state = .running → ¬ stopped →
      (priced → exec add s = .next (served (.watchAdd code above below move))) ∧
      exec (.watchDrop code) s = .next (served (.watchDrop code))) ∧
    (s.manager.state = .running → ¬ stopped → lookupCode s.directory.entries code = none →
      (priced → exec add s = .next (refused .watchAdd .unknownSymbol)) ∧
      exec (.watchDrop code) s = .next (refused .watchDrop .unknownSymbol)) ∧
    (s.manager.state = .running → ¬ stopped → s.finds code r q →
      (priced → (∃ e ∈ st.watch, e.record = r) →
        exec add s = .next (paged (s.withStation u.station { st with watch := st.watch.map fun e =>
          if e.record = r then { e with above := above, below := below, move := move } else e }) .watchAdd .done .updated)) ∧
      (priced → (∀ e ∈ st.watch, e.record ≠ r) → st.watch.length < 12 →
        exec add s = .next (paged (s.withStation u.station { st with watch := st.watch ++ [⟨r, above, below, move, false⟩] })
          .watchAdd .done .added)) ∧
      (priced → (∀ e ∈ st.watch, e.record ≠ r) → 12 ≤ st.watch.length →
        exec add s = .next (paged s .watchAdd .listFull .nothing)) ∧
      ((∀ e ∈ st.watch, e.record ≠ r) → exec (.watchDrop code) s = .next (paged s .watchDrop .notOnList .nothing)) ∧
      ((∃ e ∈ st.watch, e.record = r) → exec (.watchDrop code) s = .next (paged
        { s with desk :=
          { s.desk.mapPages (fun m => decide (m = u.station)) (Page.withoutEntries fun x => decide (x = r)) with
            stations := s.desk.stations.set u.station { st with
              watch := st.watch.filter fun e => e.record ≠ r
              alerts := st.alerts.filter fun a => a.record ≠ r } } }
        .watchDrop .done .nothing)))

/-- A page's lines (R129 to R131, R138, R154, R155, R158): at a line's completion what it delivers is cleared; then END follows
the last line, END-BROKEN a break seen in REPLY, SUSPEND an alert for another station, and otherwise the next line is
rendered. END's completion starts the receipt's window. Which line is next, by the kind of page: a fixed thing that still
stands, a pending entry that has had no line, the alert at the head, with no more than twelve lines on a page of changes or of
alerts (R145 to R148, R155, R158). And what the header and each line hold (R23, R25, R145 to R148, R158). An absent price
is sent as 0 (R191), which a station shows blank. That it is so shown, that a blank field stands between its separators, and that
the fixed set is taken with the header are the model's readings (assumptions 16 to 18), and that a fixed print replaced by a newer
one of its number has a line is its choice (assumption 44). -/
def Obligations.LinesFollowOneAnother : Prop :=
  (∀ (u : Transaction) (l : Line) (page : Page) (st : Station) (broken : Bool) (s : State), s.desk.transaction = some u →
     s.desk.stations[u.station]? = some st →
     let clears := u.kind = .routineDelivery ∨ u.kind = .resumption false
     let delivered :=
       match l.source with
       | .header =>
         (match u.kind, page with
         | .routineDelivery, .watch _ => { st with streamDue := false }
         | _, _ => st)
       | .plain => st
       | .entry r marked =>
         if clears ∧ marked = false then
           { st with watch := st.watch.map fun e => if e.record = r then { e with pending := false } else e }
         else st
       | .alert a => { st with alerts := st.alerts.filter fun x => x ≠ a }
     let s1 := s.withStation u.station delivered
     let outputs := fun (o : Output) => { s1 with desk := { s1.desk with transaction := some { u with output := o } } }
     (u.output = .line l → u.page = some page →
       (s1.nextItem u.station page = none → exec .lineCompletion s = .next
         { s1 with desk := { s1.desk with transaction := some { u with output := .ending false, window := none } } }) ∧
       (∀ item, s1.nextItem u.station page = some item →
         (s.desk.line = .reply → s.desk.attn = true → exec .lineCompletion s = .next (outputs (.ending true))) ∧
         (s.desk.line ≠ .reply ∨ s.desk.attn = false →
           (∀ n, u.kind ≠ .alertDelivery → s.desk.slot = none →
             firstRound s1.desk.stations s.desk.lastAlert (fun m x => m ≠ u.station ∧ x.alerting) n →
             exec .lineCompletion s = .next (outputs (.suspending n))) ∧
           (u.kind = .alertDelivery ∨ s.desk.slot ≠ none ∨
               (∀ (n : Nat) (x : Station), s1.desk.stations[n]? = some x → n = u.station ∨ ¬ x.alerting) →
             exec .lineCompletion s = .next { s1 with desk := { s1.desk with transaction := some { u with
               page := some item.2.2
               nextLine := u.nextLine + 1
               window := none
               output := .line
                 { number := u.nextLine, stale := decide (s.feed.feed = .lost), fields := item.1,
                   source := item.2.1 } } } })))) ∧
     (u.output = .ending broken → exec .endCompletion s = .next { s with desk := { s.desk with transaction := some { u with
       output := .receiptAwaited
       window := some (s.clock + BitVec.ofNat 32 (s.params.answerWindow * 10)) } } })) ∧
  (∀ (n r k count lines : Nat) (left sent : List Nat) (q : QuoteRecord) (st : Station) (s : State), s.record? r = some q →
     s.desk.stations[n]? = some st →
     (s.nextItem n (.quote r (k :: left)) = some (quoteLine q k, .plain, .quote r left) ∧
       s.nextItem n (.quote r []) = none) ∧
     ((q.ring.map Print.sequence).Nodup → (∀ x ∈ sent, ∀ p ∈ q.ring, p.sequence ≠ x) →
       s.nextItem n (.recent r sent) = none ∧
       ∀ p ∈ q.ring, s.nextItem n (.recent r (sent ++ p.sequence :: left)) = some (ringLine q p, .plain, .recent r left)) ∧
     ((st.watch.map WatchEntry.record).Nodup → (∀ x ∈ sent, ∀ e ∈ st.watch, e.record ≠ x) →
       s.nextItem n (.watch sent) = none ∧
       ∀ e ∈ st.watch, e.record = r →
         s.nextItem n (.watch (sent ++ r :: left)) = some (entryLine q e, .entry r false, .watch left)) ∧
     (12 ≤ lines → s.nextItem n (.changes sent lines) = none) ∧
     ((∀ e ∈ st.watch, e.pending = true → e.record ∈ sent) → s.nextItem n (.changes sent lines) = none) ∧
     (∀ before e later, lines < 12 → st.watch = before ++ e :: later → e.record = r → e.pending = true → r ∉ sent →
       (∀ x ∈ before, x.pending = true → x.record ∈ sent) →
       s.nextItem n (.changes sent lines) = some (entryLine q e, .entry r false, .changes (sent ++ [r]) (lines + 1))) ∧
     (12 ≤ count ∨ st.alerts = [] → s.nextItem n (.alerts count) = none) ∧
     (∀ a later, count < 12 → st.alerts = a :: later → a.record = r →
       s.nextItem n (.alerts count) = some (alertLine q a, .alert a, .alerts (count + 1))) ∧
     (s.openPage n (.quote r left) = .quote r [1, 2, 3, 4, 5, 6] ∧
       s.openPage n (.recent r left) = .recent r (q.ring.map Print.sequence).reverse ∧
       s.openPage n (.watch left) = .watch (st.watch.map WatchEntry.record) ∧
       s.openPage n (.changes sent lines) = .changes sent lines ∧ s.openPage n (.alerts count) = .alerts count)) ∧
  (∀ (q : QuoteRecord) (p : Print) (e : WatchEntry) (a : Alert) (r lines : Nat) (left sent : List Nat)
     (kind : RequestKind) (status : DeskStatus) (mode : StationMode) (interval : Nat) (l : Line) (s : State),
     let two := fun (n : Nat) => [Char.ofNat (48 + n / 10 % 10), Char.ofNat (48 + n % 10)]
     let time := fun (t : FloorTime) =>
       LineField.text (two t.hours ++ [':'] ++ two t.minutes ++ [':'] ++ two t.seconds)
     let named := fun (name : String) => LineField.text name.toList
     let price := fun (p : Option Nat) =>
       match p with
       | none => LineField.absentPrice
       | some p => .text (priceText q.grid p)
     let sized := fun (side : Option (Nat × Nat)) =>
       LineField.text (match side with | none => [] | some (_, n) => decimal n)
     let change :=
       match q.last, q.prevClose with
       | some (last, _), some close =>
         if last = close then named "UNCH"
         else .text ((if close < last then ['+'] else ['−']) ++ priceText q.grid ((last : Int) - (close : Int)).natAbs)
       | _, _ => named ""
     let tick :=
       match q.tick with
       | .noTick => named ""
       | .up => named "UP"
       | .down => named "DOWN"
       | .zeroPlus => named "ZERO-PLUS"
       | .zeroMinus => named "ZERO-MINUS"
     let crossedMark :=
       match q.bid, q.ask with
       | some (bid, _), some (ask, _) => if ask < bid then named "CROSSED" else named ""
       | _, _ => named ""
     let reason :=
       match q.halted with
       | none => named ""
       | some .news => named "NEWS"
       | some .imbalance => named "IMBALANCE"
       | some .other => named "OTHER"
     let monitor :=
       match q.monitor.state with
       | .calm => named "CALM"
       | .arming => named "ARMING"
       | .active => named "ACTIVE"
       | .releasing => named "RELEASING"
     let direction :=
       match q.monitor.direction with
       | none => ""
       | some .up => "UP"
       | some .down => "DOWN"
     let state :=
       if q.halted ≠ none then named "HALTED"
       else if q.monitor.state = .active ∨ q.monitor.state = .releasing then .text ("FAST ".toList ++ direction.toList)
       else named ""
     let why :=
       match a.reason with
       | .above => named "ABOVE"
       | .below => named "BELOW"
       | .move => named "MOVE"
       | .halt => named "HALT"
       | .resume => named "RESUME"
     let marker :=
       match p.condition with
       | .regular => named ""
       | .opened => named "OPD"
       | .sld => named "SLD"
     let last := price (q.last.map Prod.fst)
     let now := time s.store.floor
     let asked := LineField.text (requestName kind)
     let answered := LineField.text (deskStatusText status)
     (quoteLine q 1 = [last, change, tick] ∧
       quoteLine q 2 = [price (q.bid.map Prod.fst), sized q.bid, price (q.ask.map Prod.fst), sized q.ask, crossedMark] ∧
       quoteLine q 3 = [.text (decimal q.volume)] ∧ quoteLine q 4 = [price q.opening, price q.high, price q.low] ∧
       quoteLine q 5 = [price q.prevClose, if q.halted = none then named "NORMAL" else named "HALTED", reason] ∧
       quoteLine q 6 = [monitor, named direction, match q.last with | none => named "" | some (_, at_) => time at_]) ∧
     ringLine q p = [.text (decimal p.sequence), .text (priceText q.grid p.price), .text (decimal p.volume), marker] ∧
     entryLine q e = [.text q.code, last, change, tick, state,
       .levelMarks (decide (e.above ≠ none)) (decide (e.below ≠ none)) e.move] ∧
     alertLine q a = [.text q.code, why, price a.price] ∧
     (s.record? r = some q → s.headerFields (.quote r left) = [named "QUOTE", .text q.code, now] ∧
       s.headerFields (.recent r left) = [named "RECENT", .text q.code, now]) ∧
     s.headerFields (.watch left) = [named "WATCH", now] ∧
     s.headerFields (.changes sent lines) = [named "WATCH CHANGES", now] ∧
     s.headerFields (.alerts lines) = [named "ALERTS", now] ∧
     s.headerFields (.status (some kind) status .nothing none) = [asked, answered, now] ∧
     s.headerFields (.status (some kind) status .nothing (some q.code)) = [asked, answered, .text q.code, now] ∧
     s.headerFields (.status (some kind) status .added (some q.code)) = [asked, answered, named "ADDED", .text q.code, now] ∧
     s.headerFields (.status (some kind) status .updated (some q.code)) =
       [asked, answered, named "UPDATED", .text q.code, now] ∧
     s.headerFields (.status (some kind) status (.modeStored mode interval) none) =
       [asked, answered, .text (modeText mode), .text (decimal interval), now] ∧
     l.text.length = 40 ∧ fieldCharacters .absentPrice = ['0'] ∧ fieldShown .absentPrice = [] ∧
     (∀ text, fieldCharacters (.text text) = text ∧ fieldShown (.text text) = text) ∧
     (∀ (first second third : LineField), ({ l with fields := [first, second, third] } : Line).text =
       (fieldCharacters first ++ [' '] ++ fieldCharacters second ++ [' '] ++ fieldCharacters third ++
         List.replicate 40 ' ').take 40))

/-- How transactions end and deliveries begin (R123, R129, R131, R132, R133, R138, R139): SUSPEND's completion puts the page in
the slot; a receipt ends the page, one of another station counted; READY with DESK BUSY begins a delivery or goes on with a
resumed page, its failed-delivery run 0; a window's expiry is counted, in RESELECTING as a failed delivery, the third in a row
making the station ABSENT. That a delivery's fixed set is taken as its header is rendered is the model's reading (assumption 17). -/
def Obligations.TransactionsBeginAndEnd : Prop :=
  ∀ (n causing : Nat) (at_ : Reading) (u : Transaction) (page : Page) (st : Station) (s : State),
    s.desk.transaction = some u → s.desk.stations[u.station]? = some st →
    let counted := fun (c : StationCounters) => (s.withStation u.station { st with counters := c }).lineFreed
    let ready := s.withStation u.station { st with failedRun := 0 }
    let suspended : SuspendedPage :=
      { station := u.station, reply := decide (s.desk.line = .reply), page := page, nextLine := u.nextLine,
        causing := causing, started := false }
    (u.output = .suspending causing → u.page = some page → exec .suspendCompletion s =
      .next (State.lineFreed { s with desk := { s.desk with slot := some suspended } })) ∧
    (u.output = .receiptAwaited → n = u.station → exec (.receipt n) s = .next s.lineFreed) ∧
    (u.output = .receiptAwaited → n ≠ u.station → exec (.receipt n) s = .next
      (counted { st.counters with checkErrors := min 65535 (st.counters.checkErrors + 1) })) ∧
    (u.output ≠ .receiptAwaited → exec (.receipt n) s = .next
      (counted { st.counters with phaseFaults := min 65535 (st.counters.phaseFaults + 1) })) ∧
    (s.desk.line = .reselecting → u.page = some page → n ≠ u.station ∨ s.desk.busy = false →
      exec (.ready n) s = .next s) ∧
    (s.desk.line = .reselecting → u.page = some page → n = u.station → s.desk.busy = true →
      (u.kind = .alertDelivery ∨ u.kind = .routineDelivery → ∃ t, exec (.ready n) s = .next t ∧
        t = { ready.replyPage u page with desk := { (ready.replyPage u page).desk with line := .delivery } }) ∧
      (∀ reply, u.kind = .resumption reply → ∃ t o page', exec (.ready n) s = .next t ∧
        t = { ready with desk := { ready.desk with
          line := if reply then .reply else .delivery
          transaction := some { u with
            page := some page'
            nextLine := if ready.nextItem n page = none then u.nextLine else u.nextLine + 1
            output := o
            window := none } } } ∧
        (ready.nextItem n page = none → o = .ending false ∧ page' = page) ∧
        (∀ item, ready.nextItem n page = some item → page' = item.2.2 ∧ o = .line
          { number := u.nextLine, stale := decide (s.feed.feed = .lost), fields := item.1, source := item.2.1 }))) ∧
    (u.window = some at_ → reached s.clock at_ = true →
      (s.desk.line ≠ .reselecting → exec .windowExpiry s = .next
        (counted { st.counters with windowTimeouts := min 65535 (st.counters.windowTimeouts + 1) })) ∧
      (s.desk.line = .reselecting → exec .windowExpiry s = .next (State.lineFreed (s.withStation u.station { st with
        counters := { st.counters with failedDeliveries := min 65535 (st.counters.failedDeliveries + 1) }
        failedRun := min 3 (st.failedRun + 1)
        presence := if 2 ≤ st.failedRun then .absent else st.presence }))))

/-- The signals, the stuck line and the stream timer (R130, R134, R136, R137, R153): losing DESK BUSY in REQUEST, REPLY or
DELIVERY aborts the transaction as lost, and every other change there, DESK ATTN raised as a break among them, is seen and no
more; the stuck deadline is watched while FREE, and its expiry starts the clear
sequence, which ends FREE or STUCK with a retry in 5 s; an expiry while the line is not FREE is held, and the end of a void
claim round takes it at once, as every freed line does, with a signal held, and with none held clears the deadline; a STUCK line is FREE when both signals are seen not held; a
stream timer's expiry sets its flag and the next expiry. An event whose condition does not hold changes nothing
(assumption 6). -/
def Obligations.StuckLineIsCleared : Prop :=
  ∀ (n : Nat) (attn busy : Bool) (u : Transaction) (st : Station) (at_ : Reading) (s : State),
    s.desk.stations.length = 16 →
    let seen := { s with desk := { s.desk with attn := attn, busy := busy } }
    let clearing := { s with desk := { s.desk with line := .clearing, stuckAt := none, retryAt := none } }
    let held := s.desk.attn = true ∨ s.desk.busy = true
    ((s.desk.line = .request ∨ s.desk.line = .reply ∨ s.desk.line = .delivery) → s.desk.busy = true →
      s.desk.transaction = some u → s.desk.stations[u.station]? = some st →
      exec (.deskSignalChange attn false) s = .next (State.lineFreed
        (({ s with desk := { s.desk with attn := attn, busy := false } } : State).withStation u.station
          { st with counters := { st.counters with lost := min 65535 (st.counters.lost + 1) } }))) ∧
    ((s.desk.line = .request ∨ s.desk.line = .reply ∨ s.desk.line = .delivery) → s.desk.busy = false ∨ busy = true →
      exec (.deskSignalChange attn busy) s = .next seen) ∧
    let watched :=
      if attn = false ∧ busy = false then none
      else some (s.desk.stuckAt.getD (s.clock + BitVec.ofNat 32 (s.params.deskStuck * 100)))
    (s.desk.line = .free → exec (.deskSignalChange attn busy) s =
      .next { seen with desk := { seen.desk with stuckAt := watched } }) ∧
    (s.desk.line = .stuck → attn = false → busy = false → exec (.deskSignalChange attn busy) s = .next
      (State.lineFreed { seen with desk := { seen.desk with retryAt := none } })) ∧
    (s.desk.line = .stuck → attn = true ∨ busy = true → exec (.deskSignalChange attn busy) s = .next seen) ∧
    (s.desk.line = .claim ∨ s.desk.line = .selecting ∨ s.desk.line = .reselecting ∨ s.desk.line = .clearing →
      exec (.deskSignalChange attn busy) s = .next seen) ∧
    (s.desk.line = .free → s.desk.stuckAt = some at_ → reached s.clock at_ = true → held →
      exec .stuckDeadlineExpiry s = .next clearing) ∧
    (s.desk.line ≠ .free ∨ ¬ held → exec .stuckDeadlineExpiry s = .next s) ∧
    (s.desk.line = .claim → s.desk.answered = [] → s.desk.stuckAt = some at_ → reached s.clock at_ = true →
      (held → exec .claimRoundCompletion s = .next
        { clearing with desk := { clearing.desk with transaction := none } }) ∧
      (¬ held → exec .claimRoundCompletion s = .next { s with desk := { s.desk with
        line := .free, transaction := none, stuckAt := none } })) ∧
    (s.desk.line = .clearing → held → exec .clearSequenceCompletion s = .next
      { s with desk := { s.desk with line := .stuck, retryAt := some (s.clock + 5000#32) } }) ∧
    (s.desk.line = .clearing → ¬ held → exec .clearSequenceCompletion s = .next s.lineFreed) ∧
    (s.desk.line = .stuck → s.desk.retryAt = some at_ → reached s.clock at_ = true →
      exec .retryDeadlineExpiry s = .next clearing) ∧
    (s.desk.line ≠ .stuck → exec .retryDeadlineExpiry s = .next s) ∧
    (s.desk.stations[n]? = some st →
      (st.streamAt = some at_ → reached s.clock at_ = true → exec (.streamTimerExpiry n) s = .next (s.withStation n
        { st with streamDue := true, streamAt := some (s.clock + BitVec.ofNat 32 (st.interval * 1000)) })) ∧
      (st.streamAt = none → exec (.streamTimerExpiry n) s = .next s))

/-- A whole frame that its phase does not await (R134): during a transaction a request, READY, receipt, answer or slot answer
out of its phase is a phase fault that ends the transaction with the line FREE; outside one, a claim round among them (R125), it
is discarded and not counted. A frame not whole (R135, R193) is a frame with a wrong check in REQUEST, so a phase fault while a
request is held there, and is discarded in every other phase. Which frames are phase faults is the model's reading (assumption
21). -/
def Obligations.StrayFramesAreFaults : Prop :=
  ∀ (code : Code) (above below : Option Nat) (move : Bool) (n mode interval : Nat) (st : Station) (u : Transaction) (s : State),
    let requests := [Instr.checkError, .quoteRequest code, .recent code, .watchPage, .watchAdd code above below move,
      .watchDrop code, .setMode mode interval, .unknownRequestKind]
    let fault := (s.withStation u.station { st with counters := { st.counters with
      phaseFaults := min 65535 (st.counters.phaseFaults + 1) } }).lineFreed
    (s.desk.transaction = none →
      (∀ c ∈ requests ++ [.ready n, .receipt n, .answer n, .deskFrameIncomplete], exec c s = .next s) ∧
      (s.desk.line ≠ .claim → exec (.slotAnswer n) s = .next s)) ∧
    (s.desk.transaction = some u → s.desk.stations[u.station]? = some st →
      (s.desk.line ≠ .request ∨ u.held ≠ none → ∀ c ∈ requests, exec c s = .next fault) ∧
      (s.desk.line = .request → u.held ≠ none → exec .deskFrameIncomplete s = .next fault) ∧
      (s.desk.line ≠ .reselecting → exec (.ready n) s = .next fault) ∧
      (s.desk.line ≠ .selecting → exec (.answer n) s = .next fault) ∧
      (s.desk.line ≠ .claim → exec (.slotAnswer n) s = .next fault)) ∧
    (s.desk.line ≠ .request → exec .deskFrameIncomplete s = .next s)

/-! ### Characters and fields -/

/-- The body characters of every command and every market message whose operands fit their fields parse back to it, and its
message carries its address or sequence number, its length, 64 at most, and a right check (Tables 10-1 to 10-3, R162, R191,
R192). A reply message carries its address, echo, status and body behind kind 65 (R180, R190), and every query's body fits. A
request frame that a station sends is read back as its row, or as CHECK ERROR with a wrong echo, and cut anywhere, or with an
unreadable character, it is not whole; the station's other frames are their rows, and a frame of an unknown type is not whole (R128,
R135, R193, section 10.4). The part's own frames: CLAIM in a claim round with no transaction, LINE, END, END-BROKEN and SUSPEND by
what the transaction sends, SELECT, RESELECT and RESUME in their line states, each its type, its fields and a check that makes its sum
0, and a LINE frame its station, its number, its STALE bit and its text (section 10.4). How a body's values are numbered, how some
frames are read, which frame a state stands for and the codes of text are the model's (assumptions 15, 25, 41 and 42). -/
def Obligations.CharactersParseBack : Prop :=
  (∀ (addr : Nat) (c : Command), c.wellFormed = true → addr < 256 →
     parseCommand c.number (commandBody c) = some c ∧ commandOf (commandMessage addr c) = some c ∧
       fieldOf (commandMessage addr c) 2 1 = addr ∧
       fieldOf (commandMessage addr c) 1 1 = (commandMessage addr c).length ∧ (commandMessage addr c).length ≤ 64 ∧
       characterSum (commandMessage addr c) = 0) ∧
  (∀ (q : Nat) (m : MarketMsg), m.wellFormed = true → q ≤ 4095 →
     parseMarket m.kind (marketBody m) = some m ∧ marketOf (marketMessage q m) = some m ∧
       fieldOf (marketMessage q m) 2 2 = q ∧
       fieldOf (marketMessage q m) 1 1 = (marketMessage q m).length ∧ (marketMessage q m).length ≤ 64 ∧
       characterSum (marketMessage q m) = 0) ∧
  (∀ (r : Reply), r.address < 256 → r.echo < 256 → r.body.characters.length ≤ 58 →
     fieldOf r.message 0 1 = 65 ∧ fieldOf r.message 1 1 = r.message.length ∧ r.message.length ≤ 64 ∧
       fieldOf r.message 2 1 = r.address ∧ fieldOf r.message 3 1 = r.echo ∧ fieldOf r.message 4 1 = r.status.number ∧
       bodyOf 3 r.message = r.body.characters ∧ characterSum r.message = 0 ∧ r.characters = .flag :: r.message.map .data) ∧
  ([Status.done, .busy, .badArgument, .noRoom, .notFound, .exists_].map Status.number = [0, 1, 2, 3, 4, 5] ∧
     ∀ (part : Nat) (q : QuoteRecord) (n : Nat) (st : Station) (body : ReplyBody) (s : State), s.board.panels.length = 4 →
       q.ring.length ≤ 4 →
       (s.statusPart part = some body ∨ s.recordPart q part = some body ∨ s.stationPart n st part = some body ∨
         s.watchPart st part = some body ∨ body = .counters s.counters) → body.characters.length ≤ 58) ∧
  (∀ (echo slot : Nat) (row : Instr) (s : State), echo < 256 → row.wellFormed = true → (requestFields row).1 ≠ 0 →
     let characters := stationRequest echo row
     ((∀ u, s.desk.transaction = some u → u.station = echo) → s.frameRow slot (characters.map some) = row) ∧
     (∀ u, s.desk.transaction = some u → u.station ≠ echo → s.frameRow slot (characters.map some) = .checkError) ∧
     characterSum characters = 0 ∧
     ∀ (k : Nat) (tail : List (Option Byte)), k < characters.length → (tail = [] ∨ tail.head? = some none) →
       s.frameRow slot ((characters.take k).map some ++ tail) = .deskFrameIncomplete) ∧
  (∀ (slot n : Nat) (later : List (Option Byte)) (type : Byte) (f : List Byte) (l : Line) (s : State), n < 256 →
     s.frameRow slot ((frame 9 (charactersOf 1 n)).map some) = .slotAnswer slot ∧
     s.frameRow slot ((frame 10 (charactersOf 1 n)).map some) = .answer n ∧
     s.frameRow slot ((frame 11 (charactersOf 1 n)).map some) = .ready n ∧
     s.frameRow slot ((frame 13 (charactersOf 1 n)).map some) = .receipt n ∧
     (type.toNat < 9 ∨ 13 < type.toNat → s.frameRow slot (some type :: later) = .deskFrameIncomplete) ∧
     (s.deskFrame = some f → characterSum f = 0) ∧
     (∀ (number : Nat) (fields : List Byte), ∃ check, frame number fields = BitVec.ofNat 8 number :: (fields ++ [check]) ∧
       characterSum (frame number fields) = 0) ∧
     (s.desk.transaction = none →
       (s.desk.line = .claim → s.deskFrame = some (frame 1 [])) ∧ (s.desk.line ≠ .claim → s.deskFrame = none)) ∧
     (∀ u, s.desk.transaction = some u →
       let numbered := [BitVec.ofNat 8 u.station]
       (u.output = .line l → s.deskFrame = some (lineFrame u.station l)) ∧
       (u.output = .ending false → s.deskFrame = some (frame 7 [])) ∧
       (u.output = .ending true → s.deskFrame = some (frame 8 [])) ∧
       (u.output = .receiptAwaited → s.deskFrame = none) ∧
       (∀ causing, u.output = .suspending causing → s.deskFrame = some (frame 5 numbered)) ∧
       (u.output = .nothing →
         (s.desk.line = .selecting → s.deskFrame = some (frame 2 numbered)) ∧
         (s.desk.line = .reselecting → (∀ reply, u.kind = .resumption reply → s.deskFrame = some (frame 4 numbered)) ∧
           ((∀ reply, u.kind ≠ .resumption reply) → s.deskFrame = some (frame 3 numbered))) ∧
         (s.desk.line ≠ .selecting → s.desk.line ≠ .reselecting → s.deskFrame = none))) ∧
     slice (lineFrame n l) 4 40 = l.text.map boardCharacter ∧
     ((lineFrame n l).length = 45 ∧ fieldOf (lineFrame n l) 0 1 = 6 ∧ fieldOf (lineFrame n l) 1 1 = n ∧
       (l.number < 256 → fieldOf (lineFrame n l) 2 1 = l.number) ∧
       (fieldOf (lineFrame n l) 3 1 = if l.stale then 1 else 0) ∧ characterSum (lineFrame n l) = 0))

/-! ### The laws every step keeps -/

/-- The state after reset keeps every law below. -/
def Obligations.ResetKeepsEveryLaw : Prop :=
  State.reset.referencesAgree ∧ State.reset.recordsLawful ∧ State.reset.tapesLawful ∧ State.reset.board.lawful ∧
    State.reset.desk.stationsLawful ∧ State.reset.desk.lineLawful ∧ State.reset.desk.pagesBounded ∧
    State.reset.desk.countersCounted ∧ State.reset.feed.lawful ∧ State.reset.placesSound ∧
    State.reset.intakeSound ∧ State.reset.params.ordered ∧ State.reset.params.ranged ∧ State.reset.counters.counted

/-- The references law (R1, R19): the directory in order and within its limits, every entry and every record's PRIMARY entry,
every cell and every watch entry naming occupied records that agree, and what a held operation was accepted on still
standing. -/
def Obligations.StepKeepsReferences : Prop :=
  ∀ s t : State, s.referencesAgree → step s = .next t → t.referencesAgree

/-- Every record's ring holds at most 4 prints, no two with one sequence number (R31), and its monitor's state, count, direction,
deadline and baseline agree (R56). Each tape's ribbon, queue and notice slot agree (R73); its queue never holds more than 128
items, a single OMITTED notice among 128, and none while the omitted count is nonzero (R78); its set holds no code twice
(R85). -/
def Obligations.StepKeepsRecordsAndTapes : Prop :=
  (∀ s t : State, s.recordsLawful → step s = .next t → t.recordsLawful) ∧
  (∀ s t : State, s.tapesLawful → step s = .next t → t.tapesLawful)

/-- The dirty queue never holds a cell twice (R101); panels, pause state and the block in flight agree (sections 5.5 and 5.6);
the level thresholds stay in order (R187) and every parameter in its range (Table 9-3); every unit counter and every station
counter (R119) is a 16-bit count (0.6.5). -/
def Obligations.StepKeepsBoardAndSettings : Prop :=
  ∀ s t : State, s.board.lawful → s.params.ordered → s.params.ranged → s.counters.counted → s.desk.countersCounted →
    step s = .next t →
    t.board.lawful ∧ t.params.ordered ∧ t.params.ranged ∧ t.counters.counted ∧ t.desk.countersCounted

/-- Every watch list, pending mark and alert queue agrees (R143), every stream timer runs when it should (R153), every
failed-delivery run goes with its presence state (R119), and the transaction, the line state and the suspended page agree:
the slot never holds a page of a DETACHED station (R123, R139). No page passes its twelfth line after the header (R145, R155,
R158). -/
def Obligations.StepKeepsDeskLawful : Prop :=
  (∀ s t : State, s.desk.stationsLawful → s.desk.lineLawful → step s = .next t →
     t.desk.stationsLawful ∧ t.desk.lineLawful) ∧
  (∀ s t : State, s.desk.stationsLawful → s.recordsLawful → s.desk.pagesBounded → step s = .next t →
     t.desk.pagesBounded)

/-- The message still arriving is framed (R162, R190); lock, feed state and loss deadline agree (R163, R164); the forward queue
never holds more than 320 characters (R165), what FEED OUT still sends ahead of it counted with it (R166); no more than four reply places are taken, and the reserved ones are a held directory
operation's (R5, R169); intake holds at most 16 messages, marked only while the directory is DRAINING (R6, R172). The laws of
records and board that bound the length of a reply are kept by the statements above. -/
def Obligations.StepKeepsFeedLawful : Prop :=
  ∀ s t : State, s.feed.lawful → s.placesSound → s.intakeSound → s.recordsLawful → s.board.lawful → step s = .next t →
    t.feed.lawful ∧ t.feed.forwardCount ≤ 320 ∧ t.placesSound ∧ t.intakeSound

end
end

