-- ==== Sys2Proof/Laws/State.lean ====
section
/-! SUPPORT. What each shared update of the state leaves in each field: one lemma a field and update, true by `rfl`, so that
no later proof unfolds a record update. -/

namespace Sys2Proof.Machine

/-! `passMillisecond` -/

@[simp] theorem passMillisecond_clock (s : State) : (passMillisecond s).clock = s.clock + 1#32 := rfl
@[simp] theorem passMillisecond_manager (s : State) : (passMillisecond s).manager = s.manager := rfl
@[simp] theorem passMillisecond_params (s : State) : (passMillisecond s).params = s.params := rfl
@[simp] theorem passMillisecond_counters (s : State) : (passMillisecond s).counters = s.counters := rfl
@[simp] theorem passMillisecond_feed (s : State) :
    (passMillisecond s).feed = (s.feed.quietThrough s.clock).crystalMillisecond.flagDropped (s.clock + 1#32) := rfl
@[simp] theorem passMillisecond_intake (s : State) : (passMillisecond s).intake = s.intake := rfl
@[simp] theorem passMillisecond_directory (s : State) : (passMillisecond s).directory = s.directory := rfl
@[simp] theorem passMillisecond_store (s : State) : (passMillisecond s).store = s.store := rfl
@[simp] theorem passMillisecond_tapeA (s : State) : (passMillisecond s).tapeA = s.tapeA := rfl
@[simp] theorem passMillisecond_tapeB (s : State) : (passMillisecond s).tapeB = s.tapeB := rfl
@[simp] theorem passMillisecond_board (s : State) : (passMillisecond s).board = s.board := rfl
@[simp] theorem passMillisecond_desk (s : State) : (passMillisecond s).desk = s.desk := rfl
@[simp] theorem passMillisecond_pending (s : State) : (passMillisecond s).pending = s.pending := rfl

/-! `State.setRecord` -/

@[simp] theorem State.setRecord_clock (s : State) (r : Nat) (q : QuoteRecord) :
    (s.setRecord r q).clock = s.clock := rfl
@[simp] theorem State.setRecord_manager (s : State) (r : Nat) (q : QuoteRecord) :
    (s.setRecord r q).manager = s.manager := rfl
@[simp] theorem State.setRecord_params (s : State) (r : Nat) (q : QuoteRecord) :
    (s.setRecord r q).params = s.params := rfl
@[simp] theorem State.setRecord_counters (s : State) (r : Nat) (q : QuoteRecord) :
    (s.setRecord r q).counters = s.counters := rfl
@[simp] theorem State.setRecord_feed (s : State) (r : Nat) (q : QuoteRecord) : (s.setRecord r q).feed = s.feed := rfl
@[simp] theorem State.setRecord_intake (s : State) (r : Nat) (q : QuoteRecord) :
    (s.setRecord r q).intake = s.intake := rfl
@[simp] theorem State.setRecord_directory (s : State) (r : Nat) (q : QuoteRecord) :
    (s.setRecord r q).directory = s.directory := rfl
@[simp] theorem State.setRecord_store (s : State) (r : Nat) (q : QuoteRecord) :
    (s.setRecord r q).store = { s.store with records := tableSet s.store.records r q } := rfl
@[simp] theorem State.setRecord_tapeA (s : State) (r : Nat) (q : QuoteRecord) :
    (s.setRecord r q).tapeA = s.tapeA := rfl
@[simp] theorem State.setRecord_tapeB (s : State) (r : Nat) (q : QuoteRecord) :
    (s.setRecord r q).tapeB = s.tapeB := rfl
@[simp] theorem State.setRecord_board (s : State) (r : Nat) (q : QuoteRecord) :
    (s.setRecord r q).board = s.board := rfl
@[simp] theorem State.setRecord_desk (s : State) (r : Nat) (q : QuoteRecord) : (s.setRecord r q).desk = s.desk := rfl
@[simp] theorem State.setRecord_pending (s : State) (r : Nat) (q : QuoteRecord) :
    (s.setRecord r q).pending = s.pending := rfl

/-! `State.markCells` -/

@[simp] theorem State.markCells_clock (s : State) (cells : List Nat) : (s.markCells cells).clock = s.clock := rfl
@[simp] theorem State.markCells_manager (s : State) (cells : List Nat) :
    (s.markCells cells).manager = s.manager := rfl
@[simp] theorem State.markCells_params (s : State) (cells : List Nat) : (s.markCells cells).params = s.params := rfl
@[simp] theorem State.markCells_counters (s : State) (cells : List Nat) :
    (s.markCells cells).counters = s.counters := rfl
@[simp] theorem State.markCells_feed (s : State) (cells : List Nat) : (s.markCells cells).feed = s.feed := rfl
@[simp] theorem State.markCells_intake (s : State) (cells : List Nat) : (s.markCells cells).intake = s.intake := rfl
@[simp] theorem State.markCells_directory (s : State) (cells : List Nat) :
    (s.markCells cells).directory = s.directory := rfl
@[simp] theorem State.markCells_store (s : State) (cells : List Nat) : (s.markCells cells).store = s.store := rfl
@[simp] theorem State.markCells_tapeA (s : State) (cells : List Nat) : (s.markCells cells).tapeA = s.tapeA := rfl
@[simp] theorem State.markCells_tapeB (s : State) (cells : List Nat) : (s.markCells cells).tapeB = s.tapeB := rfl
@[simp] theorem State.markCells_board (s : State) (cells : List Nat) :
    (s.markCells cells).board = s.board.mark cells := rfl
@[simp] theorem State.markCells_desk (s : State) (cells : List Nat) : (s.markCells cells).desk = s.desk := rfl
@[simp] theorem State.markCells_pending (s : State) (cells : List Nat) :
    (s.markCells cells).pending = s.pending := rfl

/-! `State.markAssigned` -/

@[simp] theorem State.markAssigned_clock (s : State) : s.markAssigned.clock = s.clock := rfl
@[simp] theorem State.markAssigned_manager (s : State) : s.markAssigned.manager = s.manager := rfl
@[simp] theorem State.markAssigned_params (s : State) : s.markAssigned.params = s.params := rfl
@[simp] theorem State.markAssigned_counters (s : State) : s.markAssigned.counters = s.counters := rfl
@[simp] theorem State.markAssigned_feed (s : State) : s.markAssigned.feed = s.feed := rfl
@[simp] theorem State.markAssigned_intake (s : State) : s.markAssigned.intake = s.intake := rfl
@[simp] theorem State.markAssigned_directory (s : State) : s.markAssigned.directory = s.directory := rfl
@[simp] theorem State.markAssigned_store (s : State) : s.markAssigned.store = s.store := rfl
@[simp] theorem State.markAssigned_tapeA (s : State) : s.markAssigned.tapeA = s.tapeA := rfl
@[simp] theorem State.markAssigned_tapeB (s : State) : s.markAssigned.tapeB = s.tapeB := rfl
@[simp] theorem State.markAssigned_board (s : State) : s.markAssigned.board = s.board.mark s.board.assigned := rfl
@[simp] theorem State.markAssigned_desk (s : State) : s.markAssigned.desk = s.desk := rfl
@[simp] theorem State.markAssigned_pending (s : State) : s.markAssigned.pending = s.pending := rfl

/-! `State.nameCell` -/

@[simp] theorem State.nameCell_clock (s : State) (cell : Nat) (record : Option Nat) :
    (s.nameCell cell record).clock = s.clock := rfl
@[simp] theorem State.nameCell_manager (s : State) (cell : Nat) (record : Option Nat) :
    (s.nameCell cell record).manager = s.manager := rfl
@[simp] theorem State.nameCell_params (s : State) (cell : Nat) (record : Option Nat) :
    (s.nameCell cell record).params = s.params := rfl
@[simp] theorem State.nameCell_counters (s : State) (cell : Nat) (record : Option Nat) :
    (s.nameCell cell record).counters = s.counters := rfl
@[simp] theorem State.nameCell_feed (s : State) (cell : Nat) (record : Option Nat) :
    (s.nameCell cell record).feed = s.feed := rfl
@[simp] theorem State.nameCell_intake (s : State) (cell : Nat) (record : Option Nat) :
    (s.nameCell cell record).intake = s.intake := rfl
@[simp] theorem State.nameCell_directory (s : State) (cell : Nat) (record : Option Nat) :
    (s.nameCell cell record).directory = s.directory := rfl
@[simp] theorem State.nameCell_store (s : State) (cell : Nat) (record : Option Nat) :
    (s.nameCell cell record).store = s.store := rfl
@[simp] theorem State.nameCell_tapeA (s : State) (cell : Nat) (record : Option Nat) :
    (s.nameCell cell record).tapeA = s.tapeA := rfl
@[simp] theorem State.nameCell_tapeB (s : State) (cell : Nat) (record : Option Nat) :
    (s.nameCell cell record).tapeB = s.tapeB := rfl
theorem State.nameCell_board (s : State) (cell : Nat) (record : Option Nat) :
    (s.nameCell cell record).board = { s.board with cellMap := (s.nameCell cell record).board.cellMap } := rfl
@[simp] theorem State.nameCell_desk (s : State) (cell : Nat) (record : Option Nat) :
    (s.nameCell cell record).desk = s.desk := rfl
@[simp] theorem State.nameCell_pending (s : State) (cell : Nat) (record : Option Nat) :
    (s.nameCell cell record).pending = s.pending := rfl

/-! `State.reservePlace` -/

@[simp] theorem State.reservePlace_clock (s : State) : s.reservePlace.clock = s.clock := rfl
@[simp] theorem State.reservePlace_manager (s : State) : s.reservePlace.manager = s.manager := rfl
@[simp] theorem State.reservePlace_params (s : State) : s.reservePlace.params = s.params := rfl
@[simp] theorem State.reservePlace_counters (s : State) : s.reservePlace.counters = s.counters := rfl
@[simp] theorem State.reservePlace_feed (s : State) :
    s.reservePlace.feed = { s.feed with reserved := s.feed.reserved + 1 } := rfl
@[simp] theorem State.reservePlace_intake (s : State) : s.reservePlace.intake = s.intake := rfl
@[simp] theorem State.reservePlace_directory (s : State) : s.reservePlace.directory = s.directory := rfl
@[simp] theorem State.reservePlace_store (s : State) : s.reservePlace.store = s.store := rfl
@[simp] theorem State.reservePlace_tapeA (s : State) : s.reservePlace.tapeA = s.tapeA := rfl
@[simp] theorem State.reservePlace_tapeB (s : State) : s.reservePlace.tapeB = s.tapeB := rfl
@[simp] theorem State.reservePlace_board (s : State) : s.reservePlace.board = s.board := rfl
@[simp] theorem State.reservePlace_desk (s : State) : s.reservePlace.desk = s.desk := rfl
@[simp] theorem State.reservePlace_pending (s : State) : s.reservePlace.pending = s.pending := rfl

/-! `State.replied` -/

@[simp] theorem State.replied_clock (s : State) (echo : Nat) (status : Status) (body : ReplyBody) :
    (s.replied echo status body).clock = s.clock := rfl
@[simp] theorem State.replied_manager (s : State) (echo : Nat) (status : Status) (body : ReplyBody) :
    (s.replied echo status body).manager = s.manager := rfl
@[simp] theorem State.replied_params (s : State) (echo : Nat) (status : Status) (body : ReplyBody) :
    (s.replied echo status body).params = s.params := rfl
@[simp] theorem State.replied_counters (s : State) (echo : Nat) (status : Status) (body : ReplyBody) :
    (s.replied echo status body).counters = s.counters := rfl
@[simp] theorem State.replied_feed (s : State) (echo : Nat) (status : Status) (body : ReplyBody) :
    (s.replied echo status body).feed = { s.feed with filled := s.feed.filled ++ [s.replyOf echo status body] } := rfl
@[simp] theorem State.replied_intake (s : State) (echo : Nat) (status : Status) (body : ReplyBody) :
    (s.replied echo status body).intake = s.intake := rfl
@[simp] theorem State.replied_directory (s : State) (echo : Nat) (status : Status) (body : ReplyBody) :
    (s.replied echo status body).directory = s.directory := rfl
@[simp] theorem State.replied_store (s : State) (echo : Nat) (status : Status) (body : ReplyBody) :
    (s.replied echo status body).store = s.store := rfl
@[simp] theorem State.replied_tapeA (s : State) (echo : Nat) (status : Status) (body : ReplyBody) :
    (s.replied echo status body).tapeA = s.tapeA := rfl
@[simp] theorem State.replied_tapeB (s : State) (echo : Nat) (status : Status) (body : ReplyBody) :
    (s.replied echo status body).tapeB = s.tapeB := rfl
@[simp] theorem State.replied_board (s : State) (echo : Nat) (status : Status) (body : ReplyBody) :
    (s.replied echo status body).board = s.board := rfl
@[simp] theorem State.replied_desk (s : State) (echo : Nat) (status : Status) (body : ReplyBody) :
    (s.replied echo status body).desk = s.desk := rfl
@[simp] theorem State.replied_pending (s : State) (echo : Nat) (status : Status) (body : ReplyBody) :
    (s.replied echo status body).pending = s.pending := rfl

/-! `State.setEntries` -/

@[simp] theorem State.setEntries_clock (s : State) (entries : List Entry) :
    (s.setEntries entries).clock = s.clock := rfl
@[simp] theorem State.setEntries_manager (s : State) (entries : List Entry) :
    (s.setEntries entries).manager = s.manager := rfl
@[simp] theorem State.setEntries_params (s : State) (entries : List Entry) :
    (s.setEntries entries).params = s.params := rfl
@[simp] theorem State.setEntries_counters (s : State) (entries : List Entry) :
    (s.setEntries entries).counters = s.counters := rfl
@[simp] theorem State.setEntries_feed (s : State) (entries : List Entry) : (s.setEntries entries).feed = s.feed := rfl
@[simp] theorem State.setEntries_intake (s : State) (entries : List Entry) :
    (s.setEntries entries).intake = s.intake := rfl
@[simp] theorem State.setEntries_directory (s : State) (entries : List Entry) :
    (s.setEntries entries).directory = { s.directory with entries := entries } := rfl
@[simp] theorem State.setEntries_store (s : State) (entries : List Entry) :
    (s.setEntries entries).store = s.store := rfl
@[simp] theorem State.setEntries_tapeA (s : State) (entries : List Entry) :
    (s.setEntries entries).tapeA = s.tapeA := rfl
@[simp] theorem State.setEntries_tapeB (s : State) (entries : List Entry) :
    (s.setEntries entries).tapeB = s.tapeB := rfl
@[simp] theorem State.setEntries_board (s : State) (entries : List Entry) :
    (s.setEntries entries).board = s.board := rfl
@[simp] theorem State.setEntries_desk (s : State) (entries : List Entry) : (s.setEntries entries).desk = s.desk := rfl
@[simp] theorem State.setEntries_pending (s : State) (entries : List Entry) :
    (s.setEntries entries).pending = s.pending := rfl

/-! `State.modifyStation` -/

@[simp] theorem State.modifyStation_clock (s : State) (n : Nat) (f : Station → Station) :
    (s.modifyStation n f).clock = s.clock := rfl
@[simp] theorem State.modifyStation_manager (s : State) (n : Nat) (f : Station → Station) :
    (s.modifyStation n f).manager = s.manager := rfl
@[simp] theorem State.modifyStation_params (s : State) (n : Nat) (f : Station → Station) :
    (s.modifyStation n f).params = s.params := rfl
@[simp] theorem State.modifyStation_counters (s : State) (n : Nat) (f : Station → Station) :
    (s.modifyStation n f).counters = s.counters := rfl
@[simp] theorem State.modifyStation_feed (s : State) (n : Nat) (f : Station → Station) :
    (s.modifyStation n f).feed = s.feed := rfl
@[simp] theorem State.modifyStation_intake (s : State) (n : Nat) (f : Station → Station) :
    (s.modifyStation n f).intake = s.intake := rfl
@[simp] theorem State.modifyStation_directory (s : State) (n : Nat) (f : Station → Station) :
    (s.modifyStation n f).directory = s.directory := rfl
@[simp] theorem State.modifyStation_store (s : State) (n : Nat) (f : Station → Station) :
    (s.modifyStation n f).store = s.store := rfl
@[simp] theorem State.modifyStation_tapeA (s : State) (n : Nat) (f : Station → Station) :
    (s.modifyStation n f).tapeA = s.tapeA := rfl
@[simp] theorem State.modifyStation_tapeB (s : State) (n : Nat) (f : Station → Station) :
    (s.modifyStation n f).tapeB = s.tapeB := rfl
@[simp] theorem State.modifyStation_board (s : State) (n : Nat) (f : Station → Station) :
    (s.modifyStation n f).board = s.board := rfl
@[simp] theorem State.modifyStation_desk (s : State) (n : Nat) (f : Station → Station) :
    (s.modifyStation n f).desk = s.desk.modifyStation n f := rfl
@[simp] theorem State.modifyStation_pending (s : State) (n : Nat) (f : Station → Station) :
    (s.modifyStation n f).pending = s.pending := rfl

/-! `State.withStation` -/

@[simp] theorem State.withStation_clock (s : State) (n : Nat) (st : Station) :
    (s.withStation n st).clock = s.clock := rfl
@[simp] theorem State.withStation_manager (s : State) (n : Nat) (st : Station) :
    (s.withStation n st).manager = s.manager := rfl
@[simp] theorem State.withStation_params (s : State) (n : Nat) (st : Station) :
    (s.withStation n st).params = s.params := rfl
@[simp] theorem State.withStation_counters (s : State) (n : Nat) (st : Station) :
    (s.withStation n st).counters = s.counters := rfl
@[simp] theorem State.withStation_feed (s : State) (n : Nat) (st : Station) :
    (s.withStation n st).feed = s.feed := rfl
@[simp] theorem State.withStation_intake (s : State) (n : Nat) (st : Station) :
    (s.withStation n st).intake = s.intake := rfl
@[simp] theorem State.withStation_directory (s : State) (n : Nat) (st : Station) :
    (s.withStation n st).directory = s.directory := rfl
@[simp] theorem State.withStation_store (s : State) (n : Nat) (st : Station) :
    (s.withStation n st).store = s.store := rfl
@[simp] theorem State.withStation_tapeA (s : State) (n : Nat) (st : Station) :
    (s.withStation n st).tapeA = s.tapeA := rfl
@[simp] theorem State.withStation_tapeB (s : State) (n : Nat) (st : Station) :
    (s.withStation n st).tapeB = s.tapeB := rfl
@[simp] theorem State.withStation_board (s : State) (n : Nat) (st : Station) :
    (s.withStation n st).board = s.board := rfl
@[simp] theorem State.withStation_desk (s : State) (n : Nat) (st : Station) :
    (s.withStation n st).desk = { s.desk with stations := s.desk.stations.set n st } := rfl
@[simp] theorem State.withStation_pending (s : State) (n : Nat) (st : Station) :
    (s.withStation n st).pending = s.pending := rfl

/-! `State.withTransaction` -/

@[simp] theorem State.withTransaction_clock (s : State) (t : Transaction) :
    (s.withTransaction t).clock = s.clock := rfl
@[simp] theorem State.withTransaction_manager (s : State) (t : Transaction) :
    (s.withTransaction t).manager = s.manager := rfl
@[simp] theorem State.withTransaction_params (s : State) (t : Transaction) :
    (s.withTransaction t).params = s.params := rfl
@[simp] theorem State.withTransaction_counters (s : State) (t : Transaction) :
    (s.withTransaction t).counters = s.counters := rfl
@[simp] theorem State.withTransaction_feed (s : State) (t : Transaction) : (s.withTransaction t).feed = s.feed := rfl
@[simp] theorem State.withTransaction_intake (s : State) (t : Transaction) :
    (s.withTransaction t).intake = s.intake := rfl
@[simp] theorem State.withTransaction_directory (s : State) (t : Transaction) :
    (s.withTransaction t).directory = s.directory := rfl
@[simp] theorem State.withTransaction_store (s : State) (t : Transaction) :
    (s.withTransaction t).store = s.store := rfl
@[simp] theorem State.withTransaction_tapeA (s : State) (t : Transaction) :
    (s.withTransaction t).tapeA = s.tapeA := rfl
@[simp] theorem State.withTransaction_tapeB (s : State) (t : Transaction) :
    (s.withTransaction t).tapeB = s.tapeB := rfl
@[simp] theorem State.withTransaction_board (s : State) (t : Transaction) :
    (s.withTransaction t).board = s.board := rfl
@[simp] theorem State.withTransaction_desk (s : State) (t : Transaction) :
    (s.withTransaction t).desk = { s.desk with transaction := some t } := rfl
@[simp] theorem State.withTransaction_pending (s : State) (t : Transaction) :
    (s.withTransaction t).pending = s.pending := rfl

/-! `State.startPage` -/

@[simp] theorem State.startPage_clock (s : State) (t : Transaction) (line : LineState) (page : Page) :
    (s.startPage t line page).clock = s.clock := rfl
@[simp] theorem State.startPage_manager (s : State) (t : Transaction) (line : LineState) (page : Page) :
    (s.startPage t line page).manager = s.manager := rfl
@[simp] theorem State.startPage_params (s : State) (t : Transaction) (line : LineState) (page : Page) :
    (s.startPage t line page).params = s.params := rfl
@[simp] theorem State.startPage_counters (s : State) (t : Transaction) (line : LineState) (page : Page) :
    (s.startPage t line page).counters = s.counters := rfl
@[simp] theorem State.startPage_feed (s : State) (t : Transaction) (line : LineState) (page : Page) :
    (s.startPage t line page).feed = s.feed := rfl
@[simp] theorem State.startPage_intake (s : State) (t : Transaction) (line : LineState) (page : Page) :
    (s.startPage t line page).intake = s.intake := rfl
@[simp] theorem State.startPage_directory (s : State) (t : Transaction) (line : LineState) (page : Page) :
    (s.startPage t line page).directory = s.directory := rfl
@[simp] theorem State.startPage_store (s : State) (t : Transaction) (line : LineState) (page : Page) :
    (s.startPage t line page).store = s.store := rfl
@[simp] theorem State.startPage_tapeA (s : State) (t : Transaction) (line : LineState) (page : Page) :
    (s.startPage t line page).tapeA = s.tapeA := rfl
@[simp] theorem State.startPage_tapeB (s : State) (t : Transaction) (line : LineState) (page : Page) :
    (s.startPage t line page).tapeB = s.tapeB := rfl
@[simp] theorem State.startPage_board (s : State) (t : Transaction) (line : LineState) (page : Page) :
    (s.startPage t line page).board = s.board := rfl
theorem State.startPage_desk (s : State) (t : Transaction) (line : LineState) (page : Page) :
    (s.startPage t line page).desk =
      { s.desk with line := line, transaction := (s.startPage t line page).desk.transaction } := rfl
@[simp] theorem State.startPage_pending (s : State) (t : Transaction) (line : LineState) (page : Page) :
    (s.startPage t line page).pending = s.pending := rfl

/-! `State.freeLine` -/

@[simp] theorem State.freeLine_clock (s : State) : s.freeLine.clock = s.clock := rfl
@[simp] theorem State.freeLine_manager (s : State) : s.freeLine.manager = s.manager := rfl
@[simp] theorem State.freeLine_params (s : State) : s.freeLine.params = s.params := rfl
@[simp] theorem State.freeLine_counters (s : State) : s.freeLine.counters = s.counters := rfl
@[simp] theorem State.freeLine_feed (s : State) : s.freeLine.feed = s.feed := rfl
@[simp] theorem State.freeLine_intake (s : State) : s.freeLine.intake = s.intake := rfl
@[simp] theorem State.freeLine_directory (s : State) : s.freeLine.directory = s.directory := rfl
@[simp] theorem State.freeLine_store (s : State) : s.freeLine.store = s.store := rfl
@[simp] theorem State.freeLine_tapeA (s : State) : s.freeLine.tapeA = s.tapeA := rfl
@[simp] theorem State.freeLine_tapeB (s : State) : s.freeLine.tapeB = s.tapeB := rfl
@[simp] theorem State.freeLine_board (s : State) : s.freeLine.board = s.board := rfl
@[simp] theorem State.freeLine_desk (s : State) : s.freeLine.desk = s.desk.freed s.expiryHeld (stuckDeadline s) := rfl
@[simp] theorem State.freeLine_pending (s : State) : s.freeLine.pending = s.pending := rfl

/-! `State.reselect` -/

@[simp] theorem State.reselect_clock (s : State) (n : Nat) (kind : TransactionKind) (page : Page) (line : Nat) :
    (s.reselect n kind page line).clock = s.clock := rfl
@[simp] theorem State.reselect_manager (s : State) (n : Nat) (kind : TransactionKind) (page : Page) (line : Nat) :
    (s.reselect n kind page line).manager = s.manager := rfl
@[simp] theorem State.reselect_params (s : State) (n : Nat) (kind : TransactionKind) (page : Page) (line : Nat) :
    (s.reselect n kind page line).params = s.params := rfl
@[simp] theorem State.reselect_counters (s : State) (n : Nat) (kind : TransactionKind) (page : Page) (line : Nat) :
    (s.reselect n kind page line).counters = s.counters := rfl
@[simp] theorem State.reselect_feed (s : State) (n : Nat) (kind : TransactionKind) (page : Page) (line : Nat) :
    (s.reselect n kind page line).feed = s.feed := rfl
@[simp] theorem State.reselect_intake (s : State) (n : Nat) (kind : TransactionKind) (page : Page) (line : Nat) :
    (s.reselect n kind page line).intake = s.intake := rfl
@[simp] theorem State.reselect_directory (s : State) (n : Nat) (kind : TransactionKind) (page : Page) (line : Nat) :
    (s.reselect n kind page line).directory = s.directory := rfl
@[simp] theorem State.reselect_store (s : State) (n : Nat) (kind : TransactionKind) (page : Page) (line : Nat) :
    (s.reselect n kind page line).store = s.store := rfl
@[simp] theorem State.reselect_tapeA (s : State) (n : Nat) (kind : TransactionKind) (page : Page) (line : Nat) :
    (s.reselect n kind page line).tapeA = s.tapeA := rfl
@[simp] theorem State.reselect_tapeB (s : State) (n : Nat) (kind : TransactionKind) (page : Page) (line : Nat) :
    (s.reselect n kind page line).tapeB = s.tapeB := rfl
@[simp] theorem State.reselect_board (s : State) (n : Nat) (kind : TransactionKind) (page : Page) (line : Nat) :
    (s.reselect n kind page line).board = s.board := rfl
theorem State.reselect_desk (s : State) (n : Nat) (kind : TransactionKind) (page : Page) (line : Nat) :
    (s.reselect n kind page line).desk =
      { s.desk with line := .reselecting, transaction := (s.reselect n kind page line).desk.transaction } := rfl
@[simp] theorem State.reselect_pending (s : State) (n : Nat) (kind : TransactionKind) (page : Page) (line : Nat) :
    (s.reselect n kind page line).pending = s.pending := rfl

/-! `State.forwardMessage` -/

@[simp] theorem State.forwardMessage_clock (s : State) (bytes : List Byte) :
    (s.forwardMessage bytes).clock = s.clock := rfl
@[simp] theorem State.forwardMessage_manager (s : State) (bytes : List Byte) :
    (s.forwardMessage bytes).manager = s.manager := rfl
@[simp] theorem State.forwardMessage_params (s : State) (bytes : List Byte) :
    (s.forwardMessage bytes).params = s.params := rfl
@[simp] theorem State.forwardMessage_counters (s : State) (bytes : List Byte) :
    (s.forwardMessage bytes).counters = s.counters := rfl
@[simp] theorem State.forwardMessage_feed (s : State) (bytes : List Byte) :
    (s.forwardMessage bytes).feed = { s.feed with forward := s.feed.forward ++ [queued bytes] } := rfl
@[simp] theorem State.forwardMessage_intake (s : State) (bytes : List Byte) :
    (s.forwardMessage bytes).intake = s.intake := rfl
@[simp] theorem State.forwardMessage_directory (s : State) (bytes : List Byte) :
    (s.forwardMessage bytes).directory = s.directory := rfl
@[simp] theorem State.forwardMessage_store (s : State) (bytes : List Byte) :
    (s.forwardMessage bytes).store = s.store := rfl
@[simp] theorem State.forwardMessage_tapeA (s : State) (bytes : List Byte) :
    (s.forwardMessage bytes).tapeA = s.tapeA := rfl
@[simp] theorem State.forwardMessage_tapeB (s : State) (bytes : List Byte) :
    (s.forwardMessage bytes).tapeB = s.tapeB := rfl
@[simp] theorem State.forwardMessage_board (s : State) (bytes : List Byte) :
    (s.forwardMessage bytes).board = s.board := rfl
@[simp] theorem State.forwardMessage_desk (s : State) (bytes : List Byte) :
    (s.forwardMessage bytes).desk = s.desk := rfl
@[simp] theorem State.forwardMessage_pending (s : State) (bytes : List Byte) :
    (s.forwardMessage bytes).pending = s.pending := rfl

/-! `State.noteArrival` -/

@[simp] theorem State.noteArrival_clock (s : State) : s.noteArrival.clock = s.clock := rfl
@[simp] theorem State.noteArrival_manager (s : State) : s.noteArrival.manager = s.manager := rfl
@[simp] theorem State.noteArrival_params (s : State) : s.noteArrival.params = s.params := rfl
@[simp] theorem State.noteArrival_counters (s : State) : s.noteArrival.counters = s.counters := rfl
@[simp] theorem State.noteArrival_feed (s : State) : s.noteArrival.feed = s.feed.arrivalNoted s.clock := rfl
@[simp] theorem State.noteArrival_intake (s : State) : s.noteArrival.intake = s.intake := rfl
@[simp] theorem State.noteArrival_directory (s : State) : s.noteArrival.directory = s.directory := rfl
@[simp] theorem State.noteArrival_store (s : State) : s.noteArrival.store = s.store := rfl
@[simp] theorem State.noteArrival_tapeA (s : State) : s.noteArrival.tapeA = s.tapeA := rfl
@[simp] theorem State.noteArrival_tapeB (s : State) : s.noteArrival.tapeB = s.tapeB := rfl
@[simp] theorem State.noteArrival_board (s : State) : s.noteArrival.board = s.board := rfl
@[simp] theorem State.noteArrival_desk (s : State) : s.noteArrival.desk = s.desk := rfl
@[simp] theorem State.noteArrival_pending (s : State) : s.noteArrival.pending = s.pending := rfl

/-! `State.loseLock` -/

@[simp] theorem State.loseLock_clock (s : State) : s.loseLock.clock = s.clock := rfl
@[simp] theorem State.loseLock_manager (s : State) : s.loseLock.manager = s.manager := rfl
@[simp] theorem State.loseLock_params (s : State) : s.loseLock.params = s.params := rfl
@[simp] theorem State.loseLock_counters (s : State) :
    s.loseLock.counters = { s.counters with lockLosses := bump s.counters.lockLosses 1 } := rfl
@[simp] theorem State.loseLock_intake (s : State) : s.loseLock.intake = s.intake := rfl
@[simp] theorem State.loseLock_directory (s : State) : s.loseLock.directory = s.directory := rfl
@[simp] theorem State.loseLock_store (s : State) : s.loseLock.store = s.store := rfl
@[simp] theorem State.loseLock_tapeA (s : State) : s.loseLock.tapeA = s.tapeA := rfl
@[simp] theorem State.loseLock_tapeB (s : State) : s.loseLock.tapeB = s.tapeB := rfl
@[simp] theorem State.loseLock_board (s : State) : s.loseLock.board = s.board := rfl
@[simp] theorem State.loseLock_desk (s : State) : s.loseLock.desk = s.desk := rfl
@[simp] theorem State.loseLock_pending (s : State) : s.loseLock.pending = s.pending := rfl

/-! `State.countGap` -/

@[simp] theorem State.countGap_clock (s : State) (missed : Nat) : (s.countGap missed).clock = s.clock := rfl
@[simp] theorem State.countGap_manager (s : State) (missed : Nat) : (s.countGap missed).manager = s.manager := rfl
@[simp] theorem State.countGap_params (s : State) (missed : Nat) : (s.countGap missed).params = s.params := rfl
@[simp] theorem State.countGap_counters (s : State) (missed : Nat) :
    (s.countGap missed).counters =
      { s.counters with gaps := bump s.counters.gaps 1, missed := bump s.counters.missed missed } := rfl
@[simp] theorem State.countGap_feed (s : State) (missed : Nat) : (s.countGap missed).feed = s.feed := rfl
@[simp] theorem State.countGap_intake (s : State) (missed : Nat) : (s.countGap missed).intake = s.intake := rfl
@[simp] theorem State.countGap_directory (s : State) (missed : Nat) :
    (s.countGap missed).directory = s.directory := rfl
@[simp] theorem State.countGap_store (s : State) (missed : Nat) : (s.countGap missed).store = s.store := rfl
@[simp] theorem State.countGap_tapeA (s : State) (missed : Nat) : (s.countGap missed).tapeA = s.tapeA := rfl
@[simp] theorem State.countGap_tapeB (s : State) (missed : Nat) : (s.countGap missed).tapeB = s.tapeB := rfl
@[simp] theorem State.countGap_board (s : State) (missed : Nat) : (s.countGap missed).board = s.board := rfl
@[simp] theorem State.countGap_desk (s : State) (missed : Nat) : (s.countGap missed).desk = s.desk := rfl
@[simp] theorem State.countGap_pending (s : State) (missed : Nat) : (s.countGap missed).pending = s.pending := rfl

/-! `State.setTape` and the outcome of a command, by their cases -/

@[simp] theorem State.tape_setTape (s : State) (id : TapeId) (t : Tape) : (s.setTape id t).tape id = t := by cases id <;> rfl

theorem State.setTape_frame (s : State) (id : TapeId) (t : Tape) :
    s.setTape id t = { s with tapeA := (s.setTape id t).tapeA, tapeB := (s.setTape id t).tapeB } := by cases id <;> rfl

@[simp] theorem State.answer_broadcast (s : State) (echo : Nat) (status : Status) (body : ReplyBody) :
    s.answer .broadcast echo status body = s := rfl

@[simp] theorem State.refuse_broadcast (s : State) (echo : Nat) (status : Status) : s.refuse .broadcast echo status = s := rfl

/-- A reply put in the place reserved for it is one more reply, and no place stays reserved (R169). -/
theorem State.answer_place (s : State) (echo : Nat) (status : Status) (body : ReplyBody) :
    s.reservePlace.answer .place echo status body = s.replied echo status body := rfl

/-- A refusal put in the place reserved for it (R180). -/
theorem State.refuse_place (s : State) (echo : Nat) (status : Status) :
    s.reservePlace.refuse .place echo status = s.replied echo status .empty := rfl

end Sys2Proof.Machine
end

