-- ==== Sys2Proof/Laws/Tables.lean ====
section
/-! SUPPORT. The laws of the tables: reading after writing, and the canonical form that every table operation keeps. -/

namespace Sys2Proof.Machine

variable {α β : Type}

/-- A value set is read back, and every other key reads as before. -/
theorem tableGet_tableSet (table : List (Nat × α)) (key other : Nat) (value : α) :
    tableGet (tableSet table key value) other = if other = key then some value else tableGet table other := by
  induction table with
  | nil => simp [tableSet, tableGet, eq_comm]
  | cons e rest ih =>
    obtain ⟨k, v⟩ := e
    simp only [tableSet]
    split
    · simp [tableGet, eq_comm]
    · split
      · subst_vars; simp only [tableGet, eq_comm]; split <;> simp_all
      · simp only [tableGet, ih]
        split <;> split <;> simp_all

/-- A key erased reads as nothing, and every other key reads as before. -/
theorem tableGet_tableErase (table : List (Nat × α)) (key other : Nat) :
    tableGet (tableErase table key) other = if other = key then none else tableGet table other := by
  induction table with
  | nil => simp [tableErase, tableGet]
  | cons e rest ih =>
    obtain ⟨k, v⟩ := e
    simp only [tableErase, List.filter_cons] at ih ⊢
    by_cases h : k = key
    · subst h; simp only [bne_self_eq_false, Bool.false_eq_true, if_false, ih, tableGet]
      split <;> simp_all [eq_comm]
    · simp only [bne_iff_ne, ne_eq, h, not_false_eq_true, if_true, tableGet, ih]
      split <;> split <;> simp_all

/-- A table whose values are all changed reads as the old value changed. -/
theorem tableGet_map (f : α → β) (table : List (Nat × α)) (key : Nat) :
    tableGet (table.map fun e => (e.1, f e.2)) key = (tableGet table key).map f := by
  induction table with
  | nil => rfl
  | cons e rest ih => obtain ⟨k, v⟩ := e; simp only [List.map_cons, tableGet]; split <;> simp_all

/-- What is read from a table stands in it. -/
theorem mem_of_tableGet {table : List (Nat × α)} {key : Nat} {value : α} (h : tableGet table key = some value) :
    (key, value) ∈ table := by
  induction table with
  | nil => simp [tableGet] at h
  | cons e rest ih =>
    obtain ⟨k, v⟩ := e
    simp only [tableGet] at h
    split at h
    · simp_all
    · exact List.mem_cons_of_mem _ (ih h)

/-- In the canonical form every entry is what its key reads as. -/
theorem tableGet_of_mem {table : List (Nat × α)} (h : tableAscending table) {e : Nat × α} (he : e ∈ table) :
    tableGet table e.1 = some e.2 := by
  induction table with
  | nil => simp at he
  | cons x rest ih =>
    obtain ⟨k, v⟩ := x
    simp only [tableAscending, List.map_cons, List.pairwise_cons] at h
    rcases List.mem_cons.1 he with rfl | hm
    · simp [tableGet]
    · have : k < e.1 := h.1 _ (List.mem_map_of_mem hm)
      simp only [tableGet, if_neg (Nat.ne_of_lt this)]
      exact ih h.2 hm

/-- The keys after a value is set: the old ones and its own. -/
theorem mem_keys_tableSet {table : List (Nat × α)} {key k : Nat} {value : α}
    (h : k ∈ (tableSet table key value).map Prod.fst) : k = key ∨ k ∈ table.map Prod.fst := by
  induction table with
  | nil => simpa [tableSet] using h
  | cons e rest ih =>
    obtain ⟨k', v⟩ := e
    simp only [tableSet] at h
    split at h
    · simpa using h
    · split at h
      · subst_vars
        simp only [List.map_cons, List.mem_cons] at h ⊢
        tauto
      · simp only [List.map_cons, List.mem_cons] at h ⊢
        rcases h with h | h
        · exact Or.inr (Or.inl h)
        · rcases ih h with h | h <;> tauto

/-- Setting a value keeps the canonical form. -/
theorem tableSet_ascending {table : List (Nat × α)} (h : tableAscending table) (key : Nat) (value : α) :
    tableAscending (tableSet table key value) := by
  induction table with
  | nil => simp [tableSet, tableAscending]
  | cons e rest ih =>
    obtain ⟨k, v⟩ := e
    have hc := h
    simp only [tableAscending, List.map_cons, List.pairwise_cons] at h
    simp only [tableSet]
    split
    · rename_i hk
      simp only [tableAscending, List.map_cons, List.pairwise_cons, List.mem_cons]
      refine ⟨?_, h⟩
      rintro a (rfl | ha)
      · exact hk
      · exact Nat.lt_trans hk (h.1 a ha)
    · split
      · subst_vars; exact hc
      · have := ih h.2
        simp only [tableAscending, List.map_cons, List.pairwise_cons]
        refine ⟨fun a ha => ?_, this⟩
        rcases mem_keys_tableSet ha with rfl | ha
        · omega
        · exact h.1 a ha

/-- Erasing a key keeps the canonical form. -/
theorem tableErase_ascending {table : List (Nat × α)} (h : tableAscending table) (key : Nat) :
    tableAscending (tableErase table key) :=
  List.Pairwise.sublist (List.Sublist.map Prod.fst List.filter_sublist) h

/-- A record set is read back, and every other record number reads as before (R19). -/
theorem State.record?_setRecord (s : State) (r other : Nat) (q : QuoteRecord) :
    (s.setRecord r q).record? other = if other = r then some q else s.record? other :=
  tableGet_tableSet s.store.records r other q

/-- A cell named is read back, and every other cell reads as before (R98). -/
theorem State.cell_nameCell (s : State) (cell other : Nat) (record : Option Nat) :
    tableGet (s.nameCell cell record).board.cellMap other =
      if other = cell then record else tableGet s.board.cellMap other := by
  cases record with
  | none => exact tableGet_tableErase s.board.cellMap cell other
  | some r => exact tableGet_tableSet s.board.cellMap cell other r

/-- The cell map keeps its canonical form when a cell is named. -/
theorem State.nameCell_ascending {s : State} (h : tableAscending s.board.cellMap) (cell : Nat) (record : Option Nat) :
    tableAscending (s.nameCell cell record).board.cellMap := by
  cases record with
  | none => exact tableErase_ascending h cell
  | some r => exact tableSet_ascending h cell r

end Sys2Proof.Machine
end

