-- ==== Sys2Proof/Laws/Cells.lean ====
section
/-! SUPPORT. The dirty queue, cell lists, block assembly and a block's characters: what marking, taking a panel's cells and
passing over cells that no block takes can do, and how many characters each part of a block is. -/

namespace Sys2Proof.Machine

/-- A number takes the characters of its width (Chapter 10). -/
@[simp] theorem length_charactersOf (width value : Nat) : (charactersOf width value).length = width := by
  induction width with
  | zero => rfl
  | succ width ih => simp [charactersOf, ih]

/-- A code takes five characters (R191). -/
@[simp] theorem length_codeCharacters (code : Code) : (codeCharacters code).length = 5 := by
  simp [codeCharacters]

/-- Filled text takes the characters of its width (section 10.5). -/
@[simp] theorem length_filled (width : Nat) (text : Text) : (filled width text).length = width := by
  simp [filled]

/-- A cell update is 34 characters (section 10.5). -/
@[simp] theorem length_updateCharacters (u : CellUpdate) : (updateCharacters u).length = 34 := by
  simp [updateCharacters]

/-- A block's updates are 34 characters each (section 10.5). -/
theorem length_updates (updates : List CellUpdate) :
    ((updates.map updateCharacters).flatten).length = 34 * updates.length := by
  induction updates with
  | nil => rfl
  | cons u rest ih =>
    simp only [List.map_cons, List.flatten_cons, List.length_append, length_updateCharacters, ih, List.length_cons]
    omega

/-- A cell is queued after a marking exactly when it was queued or is the cell marked (R101). -/
theorem mem_markCell (dirty : List Nat) (cell c : Nat) : c ∈ markCell dirty cell ↔ c ∈ dirty ∨ c = cell := by
  unfold markCell
  split
  · constructor
    · exact Or.inl
    · rintro (h | rfl) <;> assumption
  · simp

/-- A cell is queued after several markings exactly when it was queued or is one of those marked (R101). -/
theorem mem_markCells (dirty cells : List Nat) (c : Nat) : c ∈ markCells dirty cells ↔ c ∈ dirty ∨ c ∈ cells := by
  induction cells generalizing dirty with
  | nil => simp [markCells]
  | cons x rest ih =>
    have := ih (markCell dirty x)
    simp only [markCells, List.foldl_cons, List.mem_cons] at this ⊢
    rw [this, mem_markCell]
    tauto

/-- Marking never queues a cell twice (R101). -/
theorem markCell_nodup {dirty : List Nat} (h : dirty.Nodup) (cell : Nat) : (markCell dirty cell).Nodup := by
  unfold markCell
  split
  · exact h
  · rename_i hc
    exact List.nodup_append.2 ⟨h, List.nodup_singleton _, fun a ha b hb hab => by simp_all⟩

/-- Marking several cells never queues a cell twice (R101). -/
theorem markCells_nodup {dirty : List Nat} (h : dirty.Nodup) (cells : List Nat) : (markCells dirty cells).Nodup := by
  induction cells generalizing dirty with
  | nil => exact h
  | cons x rest ih => exact ih (markCell_nodup h x)

/-- Cells already queued keep their places (R101). -/
theorem markCells_prefix (dirty cells : List Nat) : ∃ joined, markCells dirty cells = dirty ++ joined := by
  induction cells generalizing dirty with
  | nil => exact ⟨[], by simp [markCells]⟩
  | cons x rest ih =>
    obtain ⟨joined, h⟩ := ih (markCell dirty x)
    unfold markCell at h
    split at h
    · exact ⟨joined, by simpa [markCells, markCell, *] using h⟩
    · exact ⟨x :: joined, by simpa [markCells, markCell, *] using h⟩

/-- A cell taken out of its record's list: the cell map and every other record stand (R12, R98). -/
theorem State.detachCell_frame (s : State) (cell : Nat) :
    s.detachCell cell = { s with store := { s.store with records := (s.detachCell cell).store.records } } := by
  unfold State.detachCell
  split
  · rfl
  · split <;> rfl

/-- What a record reads as after a cell is taken out of the list of the record that the cell map names (R12, R98). -/
theorem State.record?_detachCell (s : State) (cell r : Nat) :
    (s.detachCell cell).record? r =
      if tableGet s.board.cellMap cell = some r then
        (s.record? r).map fun q => { q with cells := q.cells.filter fun c => c != cell }
      else s.record? r := by
  cases hc : tableGet s.board.cellMap cell with
  | none => simp [State.detachCell, hc]
  | some n =>
    cases hq : s.record? n with
    | none =>
      simp only [State.detachCell, hc, hq, Option.some.injEq]
      split
      · subst_vars; simp [hq]
      · rfl
    | some q =>
      simp only [State.detachCell, hc, hq, State.record?_setRecord, Option.some.injEq]
      by_cases h : n = r
      · subst h; simp [hq]
      · simp [h, Ne.symm h]

/-- The cells taken for a block are the first of its panel, up to the room, and the others keep their order (R103). -/
theorem takePanel_spec (panel room : Nat) (queue : List Nat) (hn : queue.Nodup) :
    (takePanel panel room queue).1 = (queue.filter fun x => x / 64 = panel).take room ∧
      (takePanel panel room queue).2 = queue.filter fun x => x ∉ (takePanel panel room queue).1 := by
  induction queue generalizing room with
  | nil => simp [takePanel]
  | cons c rest ih =>
    have hc : c ∉ rest := (List.nodup_cons.1 hn).1
    have hr := (List.nodup_cons.1 hn).2
    cases room with
    | zero => simp [takePanel]
    | succ k =>
      by_cases hp : c / 64 = panel
      · have ih1 := ih k hr
        simp only [takePanel, panelOf, hp, if_true]
        refine ⟨by simp [hp, ih1.1], ?_⟩
        simp only [List.filter_cons, List.mem_cons, true_or, not_true, decide_false]
        rw [ih1.2]
        simp only [Bool.false_eq_true, if_false]
        apply List.filter_congr
        intro x hx
        have : x ≠ c := fun h => hc (h ▸ hx)
        simp [this]
      · have ih1 := ih (k + 1) hr
        simp only [takePanel, panelOf, hp, if_false]
        refine ⟨by simp [hp, ih1.1], ?_⟩
        have hcm : c ∉ (takePanel panel (k + 1) rest).1 := by
          rw [ih1.1]
          exact fun h => hc (List.mem_of_mem_filter (List.mem_of_mem_take h))
        simp only [List.filter_cons, hcm, not_false_eq_true, decide_true, if_true]
        rw [ih1.2]

/-- A PROBING panel with no assigned cells, in terms of its state and the cell map (R110). -/
theorem Board.unprobed_iff (b : Board) (panel : Nat) :
    b.unprobed panel = true ↔ b.panelState panel = .probing ∧ ∀ e ∈ b.cellMap, e.1 / 64 ≠ panel := by
  simp [Board.unprobed, panelOf]

/-- A cell is passed over exactly when its panel is OUT, or PROBING with no assigned cells (R103, R110). -/
theorem Board.passedOver_iff (b : Board) (c : Nat) :
    b.passedOver c = true ↔ b.panelState (c / 64) = .out ∨ b.unprobed (c / 64) = true := by
  rw [Board.passedOver, Bool.or_eq_true, decide_eq_true_iff]
  rfl

/-- What is left of cells passed over is some of them, in their order (R103, R110). -/
theorem Board.waiting_sublist (b : Board) (cells : List Nat) : (b.waiting cells).Sublist cells := List.filter_sublist

/-- The cells passed over at the head, and the cell that a block takes first (R103, R110). -/
theorem passedOver_split (b : Board) (passed rest : List Nat) (c : Nat) (h : ∀ x ∈ passed, b.passedOver x = true)
    (hc : b.passedOver c = false) :
    (passed ++ c :: rest).takeWhile b.passedOver = passed ∧ (passed ++ c :: rest).dropWhile b.passedOver = c :: rest := by
  induction passed with
  | nil => simp [hc]
  | cons x t ih =>
    have hx := h x (by simp)
    have ht := ih fun y hy => h y (by simp [hy])
    simp [hx, ht.1, ht.2]

/-- With every queued cell passed over no block takes one (R103, R110). -/
theorem passedOver_all (b : Board) (passed : List Nat) (h : ∀ x ∈ passed, b.passedOver x = true) :
    passed.takeWhile b.passedOver = passed ∧ passed.dropWhile b.passedOver = [] := by
  induction passed with
  | nil => simp
  | cons x t ih =>
    have hx := h x (by simp)
    have ht := ih fun y hy => h y (by simp [hy])
    simp [hx, ht.1, ht.2]

/-- An assembly changes the dirty queue and the block in flight alone (R103). -/
theorem State.assemble_frame (s : State) :
    s.assemble = { s with board := { s.board with dirty := s.assemble.board.dirty, block := s.assemble.board.block } } := by
  unfold State.assemble
  split
  · split <;> rfl
  · rfl

end Sys2Proof.Machine
end

