-- ==== Sys2Proof/Laws/Desk.lean ====
section
/-! SUPPORT. The desk line's shared operations: a freed line, a station changed, a reply page, the round order, a frame out
of its phase, and what an event on a record does to one station. -/

namespace Sys2Proof.Machine

/-- The line freed in one form: FREE with its stuck deadline by the two signals, or CLEARING where the expiry was held (R123,
R136). -/
theorem State.freeLine_eq (s : State) : s.freeLine = s.lineFreed := by
  simp only [State.freeLine, Desk.freed, State.lineFreed, State.expiryHeld, Desk.clearing, stuckWatched, stuckDeadline]
  rcases Option.eq_none_or_eq_some s.desk.stuckAt with hd | ⟨d, hd⟩
  · by_cases ha : s.desk.attn = true <;> by_cases hb : s.desk.busy = true <;> simp [ha, hb, hd, due]
  · by_cases ha : s.desk.attn = true <;> by_cases hb : s.desk.busy = true <;>
      by_cases hc : reached s.clock d = true <;> simp [ha, hb, hc, hd, due]

/-- A station's record changed is the record replaced. -/
theorem State.modifyStation_eq (s : State) (n : Nat) (st : Station) (f : Station → Station)
    (h : s.desk.stations[n]? = some st) : s.modifyStation n f = s.withStation n (f st) := by
  have : s.desk.stations.modify n f = s.desk.stations.set n (f st) := by rw [List.modify_eq_set_getElem?]; simp [h]
  simp only [State.modifyStation, Desk.modifyStation, State.withStation, this]

/-- A station record changed leaves sixteen records sixteen. -/
@[simp] theorem Desk.modifyStation_length (d : Desk) (n : Nat) (f : Station → Station) :
    (d.modifyStation n f).stations.length = d.stations.length := by
  simp [Desk.modifyStation]

/-- A station record reads as changed, and every other as before. -/
theorem Desk.modifyStation_get (d : Desk) (n m : Nat) (f : Station → Station) :
    (d.modifyStation n f).stations[m]? = if m = n then d.stations[m]?.map f else d.stations[m]? := by
  simp only [Desk.modifyStation, List.getElem?_modify]
  by_cases h : m = n
  · subst h; cases d.stations[m]? <;> simp
  · have : ¬ n = m := fun hh => h hh.symm
    cases d.stations[m]? <;> simp [h, this]

/-- A reply begun is a reply page (R128, R129). -/
theorem State.replyWith_eq (s : State) (u : Transaction) (page : Page) : s.replyWith u page = s.replyPage u page := rfl

/-- A fault counted ends the transaction (R134). -/
theorem State.abort_eq (s : State) (u : Transaction) (st : Station) (count : Station → Station)
    (ht : s.desk.transaction = some u) (hs : s.desk.stations[u.station]? = some st) :
    s.abort count = (s.withStation u.station (count st)).lineFreed := by
  simp only [State.abort, ht, State.modifyStation_eq _ _ _ _ hs, State.freeLine_eq]

/-- Outside a transaction there is nothing to abort (R134). -/
theorem State.abort_none (s : State) (count : Station → Station) (ht : s.desk.transaction = none) : s.abort count = s := by
  simp only [State.abort, ht]

/-- The first station in round order is what the search finds (R124). -/
theorem firstInRound_some {stations : List Station} {last : Nat} {test : Nat → Station → Bool} {P : Nat → Station → Prop}
    (hP : ∀ n st, test n st = true ↔ P n st) {n : Nat} (h : firstRound stations last P n) :
    firstInRound stations last test = some n := by
  obtain ⟨d, h1, h2, ⟨st, h3, h4⟩, h5⟩ := h
  rw [firstInRound, List.find?_eq_some_iff_getElem]
  subst h2
  refine ⟨by simp [h3, (hP _ _).2 h4], d, by simp [roundOrder, h1], by simp [roundOrder], ?_⟩
  intro j hj
  simp only [roundOrder, List.getElem_map, List.getElem_range]
  cases hh : stations[(last + 1 + j) % 16]? with
  | none => simp
  | some x =>
    have := h5 j hj x hh
    cases ht : test ((last + 1 + j) % 16) x
    · simp [ht]
    · exact absurd ((hP _ _).1 ht) this

/-- With no station that passes the search finds none (R124). -/
theorem firstInRound_none {stations : List Station} {last : Nat} {test : Nat → Station → Bool}
    (h : ∀ (n : Nat) (st : Station), stations[n]? = some st → test n st = false) :
    firstInRound stations last test = none := by
  rw [firstInRound, List.find?_eq_none]
  intro x hx
  cases hh : stations[x]? with
  | none => simp
  | some st => simp [h x st hh]

/-- A station found in the round passes the test (R124). -/
theorem firstInRound_mem {stations : List Station} {last n : Nat} {test : Nat → Station → Bool}
    (h : firstInRound stations last test = some n) : n < 16 ∧ ∃ st, stations[n]? = some st ∧ test n st = true := by
  unfold firstInRound at h
  have hm := List.mem_of_find?_eq_some h
  have ht := List.find?_some h
  constructor
  · simp only [roundOrder, List.mem_map, List.mem_range] at hm
    obtain ⟨a, _, rfl⟩ := hm
    exact Nat.mod_lt _ (by decide)
  · cases hs : stations[n]? with
    | none => simp [hs] at ht
    | some st => exact ⟨st, rfl, by simpa [hs] using ht⟩

/-- The test of a routine delivery in the manual's words (R124 item 4). -/
theorem Station.routineDue_iff (st : Station) : st.routineDue = true ↔ st.isDue := by
  simp only [Station.routineDue, Station.isDue]
  cases st.mode <;> simp

/-- The test of an alert delivery in the manual's words (R124 item 2). -/
theorem Station.alerting_iff (st : Station) :
    (decide (st.presence = .attached) && decide (st.alerts ≠ [])) = true ↔ st.alerting := by simp [Station.alerting]

/-- An event on a record reads at every station as the station touched. -/
theorem Desk.touch_get (d : Desk) (r n : Nat) (f : WatchEntry → WatchEntry × Option Alert) :
    (d.touch r f).stations[n]? = d.stations[n]?.map (Station.touch r f) := by
  simp [Desk.touch]

/-- A DETACHED station is not touched (R154, R156). -/
theorem Station.touch_detached (r : Nat) (f : WatchEntry → WatchEntry × Option Alert) (st : Station)
    (h : st.presence = .detached) : st.touch r f = st := by
  rw [Station.touch, if_pos h]

/-- A station with no entry for the record is not touched (R154). -/
theorem Station.touch_unlisted (r : Nat) (f : WatchEntry → WatchEntry × Option Alert) (st : Station)
    (h : ∀ e ∈ st.watch, e.record ≠ r) : st.touch r f = st := by
  unfold Station.touch
  split
  · rfl
  · have : st.watch.find? (fun e => decide (e.record = r)) = none := by
      rw [List.find?_eq_none]; simpa using h
    rw [this]

/-- An alert raised stands in the queue, and no other entry's alert is lost (R157). -/
theorem mem_raiseAlert (alerts : List Alert) (a x : Alert) :
    x ∈ raiseAlert alerts a ↔ x = a ∨ (x ∈ alerts ∧ x.record ≠ a.record) := by
  unfold raiseAlert
  split
  · rename_i h
    simp only [List.any_eq_true, decide_eq_true_eq] at h
    obtain ⟨y, hy, hya⟩ := h
    simp only [List.mem_map]
    constructor
    · rintro ⟨z, hz, rfl⟩
      by_cases hza : z.record = a.record
      · simp [hza]
      · simp [hza, hz]
    · rintro (rfl | ⟨hx, hxa⟩)
      · exact ⟨y, hy, by simp [hya]⟩
      · exact ⟨x, hx, by simp [hxa]⟩
  · rename_i h
    simp only [List.any_eq_true, decide_eq_true_eq, not_exists, not_and] at h
    simp only [List.mem_append, List.mem_singleton]
    constructor
    · rintro (hx | rfl)
      · exact Or.inr ⟨hx, h x hx⟩
      · exact Or.inl rfl
    · rintro (rfl | ⟨hx, _⟩)
      · exact Or.inr rfl
      · exact Or.inl hx

end Sys2Proof.Machine
end

