-- ==== Sys2Proof/Laws/Directory.lean ====
section
/-! SUPPORT. The directory: R2's order of codes is a strict total order, and what joining and leaving do to lookup, order and
counts. -/

namespace Sys2Proof.Machine

/-- No code sorts before itself (R2). -/
theorem codeLess_irrefl (c : Code) : codeLess c c = false := by
  induction c with
  | nil => rfl
  | cons a t ih => simp [codeLess, ih]

/-- R2's order is transitive. -/
theorem codeLess_trans {a b c : Code} (h1 : codeLess a b = true) (h2 : codeLess b c = true) : codeLess a c = true := by
  induction a generalizing b c with
  | nil => cases b <;> cases c <;> simp_all [codeLess]
  | cons x a ih =>
    cases b with
    | nil => simp [codeLess] at h1
    | cons y b =>
      cases c with
      | nil => simp [codeLess] at h2
      | cons z c =>
        simp only [codeLess] at h1 h2 ⊢
        split at h1
        · split at h2
          · rw [if_pos (by omega)]
          · split at h2
            · subst_vars; rw [if_pos (by assumption)]
            · simp at h2
        · split at h1
          · subst_vars
            split at h2
            · rw [if_pos (by assumption)]
            · split at h2
              · subst_vars
                rw [if_neg (by assumption), if_pos rfl]
                exact ih h1 h2
              · simp at h2
          · simp at h1

/-- Of two different codes one sorts before the other (R2). -/
theorem codeLess_total {a b : Code} (h : a ≠ b) : codeLess a b = true ∨ codeLess b a = true := by
  induction a generalizing b with
  | nil => cases b <;> simp_all [codeLess]
  | cons x a ih =>
    cases b with
    | nil => simp [codeLess]
    | cons y b =>
      by_cases hxy : x = y
      · subst hxy
        have : a ≠ b := fun hab => h (by rw [hab])
        simpa [codeLess] using ih this
      · have hn : x.toNat ≠ y.toNat := fun hh => hxy (Char.ext (UInt32.toNat_inj.1 hh))
        rcases Nat.lt_or_gt_of_ne hn with hlt | hlt
        · left; simp only [codeLess]; rw [if_pos hlt]
        · right; simp only [codeLess]; rw [if_pos hlt]

/-- An entry joined is the only change to what the directory holds (R1). -/
theorem mem_insertEntry (entries : List Entry) (e x : Entry) : x ∈ insertEntry entries e ↔ x = e ∨ x ∈ entries := by
  induction entries with
  | nil => simp [insertEntry]
  | cons y rest ih =>
    unfold insertEntry
    split
    · simp
    · simp only [List.mem_cons, ih]
      tauto

/-- An entry whose code the directory does not hold joins it with the order kept (R1). -/
theorem insertEntry_ordered {entries : List Entry} (h : (entries.map Entry.code).Pairwise fun a b => codeLess a b = true)
    {e : Entry} (hn : ∀ x ∈ entries, x.code ≠ e.code) :
    ((insertEntry entries e).map Entry.code).Pairwise fun a b => codeLess a b = true := by
  induction entries with
  | nil => simp [insertEntry]
  | cons y rest ih =>
    have hc := h
    simp only [List.map_cons, List.pairwise_cons, List.mem_map, forall_exists_index, and_imp] at h
    unfold insertEntry
    split
    · rename_i hlt
      simp only [List.map_cons] at hc ⊢
      refine List.pairwise_cons.2 ⟨?_, hc⟩
      intro a ha
      rcases List.mem_cons.1 ha with rfl | ha
      · exact hlt
      · exact codeLess_trans hlt ((List.pairwise_cons.1 hc).1 a ha)
    · rename_i hlt
      simp only [List.map_cons]
      refine List.pairwise_cons.2 ⟨?_, ih h.2 fun x hx => hn x (List.mem_cons_of_mem _ hx)⟩
      intro a ha
      obtain ⟨x, hx, rfl⟩ := List.mem_map.1 ha
      rcases (mem_insertEntry _ _ _).1 hx with rfl | hx
      · rcases codeLess_total (hn y (by simp)) with hh | hh
        · exact hh
        · exact absurd hh hlt
      · exact h.1 _ x hx rfl

/-- An entry joined adds one to the count of its kind and nothing to the other's (R1). -/
theorem countEntries_insertEntry (entries : List Entry) (e : Entry) (kind : EntryKind) :
    countEntries (insertEntry entries e) kind = countEntries entries kind + if e.kind = kind then 1 else 0 := by
  induction entries with
  | nil => by_cases h : e.kind = kind <;> simp [insertEntry, countEntries, h]
  | cons y rest ih =>
    unfold insertEntry
    split
    · by_cases h : e.kind = kind <;> simp [countEntries, h]
    · unfold countEntries at ih ⊢
      by_cases h : y.kind = kind <;> simp [h, ih]; omega

/-- Entries that leave take nothing with them: the others keep their order (R1). -/
theorem filter_ordered {entries : List Entry} (h : (entries.map Entry.code).Pairwise fun a b => codeLess a b = true)
    (stays : Entry → Bool) : ((entries.filter stays).map Entry.code).Pairwise fun a b => codeLess a b = true :=
  List.Pairwise.sublist (List.Sublist.map Entry.code List.filter_sublist) h

/-- Entries that leave never raise a count (R1). -/
theorem countEntries_filter_le (entries : List Entry) (stays : Entry → Bool) (kind : EntryKind) :
    countEntries (entries.filter stays) kind ≤ countEntries entries kind := by
  unfold countEntries
  exact List.Sublist.length_le (List.Sublist.filter _ List.filter_sublist)

/-- The entry found for a code stands in the directory and has that code (R3). -/
theorem findEntry_mem {entries : List Entry} {code : Code} {e : Entry} (h : findEntry entries code = some e) :
    e ∈ entries ∧ e.code = code := by
  induction entries with
  | nil => simp [findEntry] at h
  | cons x rest ih =>
    unfold findEntry at h
    split at h
    · cases h; simp_all
    · exact ⟨List.mem_cons_of_mem _ (ih h).1, (ih h).2⟩

/-- A code is not found exactly when no entry has it (R3). -/
theorem findEntry_none {entries : List Entry} {code : Code} :
    findEntry entries code = none ↔ ∀ x ∈ entries, x.code ≠ code := by
  induction entries with
  | nil => simp [findEntry]
  | cons x rest ih =>
    unfold findEntry
    split
    · simp_all
    · simp_all

/-- A code looked up gives the record of an entry with that code (R3). -/
theorem lookupCode_some {entries : List Entry} {code : Code} {r : Nat} (h : lookupCode entries code = some r) :
    ∃ e ∈ entries, e.code = code ∧ e.record = r := by
  unfold lookupCode at h
  cases hf : findEntry entries code with
  | none => simp [hf] at h
  | some e =>
    simp only [hf, Option.map_some, Option.some.injEq] at h
    exact ⟨e, (findEntry_mem hf).1, (findEntry_mem hf).2, h⟩

/-- A code not looked up is no entry's (R3). -/
theorem lookupCode_none {entries : List Entry} {code : Code} :
    lookupCode entries code = none ↔ ∀ x ∈ entries, x.code ≠ code := by
  rw [← findEntry_none, lookupCode, Option.map_eq_none_iff]

end Sys2Proof.Machine
end

