-- ==== Sys2Proof/Laws/Routes.lean ====
section
/-! SUPPORT. How a command reaches its rule and what an accepted directory command leaves: the cases of R167's table, and
DRAINING giving way to WORKING. -/

namespace Sys2Proof.Machine

/-- A command that is taken is this unit's, finds a place free and is no broadcast (R167). -/
theorem State.takes_spec {s : State} {addr : Nat} (h : s.takes addr) :
    s.ownAddress addr = true ∧ s.feed.placeFree = true ∧ addr ≠ 63 := by
  obtain ⟨h1, h2, h3, h4⟩ := h
  simp only [State.ownAddress, Repeater.placeFree, Bool.and_eq_true, decide_eq_true_eq]
  exact ⟨⟨⟨h1, h2⟩, h3⟩, h4, by omega⟩

/-- A command taken is dealt with beside the place reserved for it (R167). -/
theorem State.passCommand_taken {s : State} {addr : Nat} (h : s.takes addr) (deal : Route → State → State) :
    s.passCommand addr deal = deal .place s.reservePlace := by
  obtain ⟨a, b, c⟩ := State.takes_spec h
  rw [State.passCommand, if_neg c, if_pos a, if_pos b]

/-- A broadcast is dealt with on the state as it stands (R167). -/
theorem State.passCommand_broadcast (s : State) (deal : Route → State → State) : s.passCommand 63 deal = deal .broadcast s := by
  rw [State.passCommand, if_pos rfl]

/-- A row that passes its command by its address leaves what its rule makes, with the reply placed or broadcast (R167, R180). -/
theorem State.answersAs_of {s u : State} {row : Nat → Instr} {echo : Nat} {status : Status} {body : ReplyBody}
    (deal : Route → State → State) (hr : ∀ addr, exec (row addr) s = .next (s.passCommand addr deal))
    (hb : deal .broadcast s = u) (hp : deal .place s.reservePlace = u.replied echo status body) :
    s.answersAs row echo status body u :=
  ⟨fun addr h => by rw [hr, State.passCommand_taken h, hp], by rw [hr, State.passCommand_broadcast, hb]⟩

/-- Everything `passCommand` can do (R167): deal with a broadcast, deal with a command taken, count an untaken one, or
nothing. -/
theorem State.passCommand_cases (s : State) (addr : Nat) (deal : Route → State → State) :
    (addr = 63 ∧ s.passCommand addr deal = deal .broadcast s) ∨
      (s.takes addr ∧ s.passCommand addr deal = deal .place s.reservePlace) ∨
      (s.ownAddress addr = true ∧ 4 ≤ s.feed.occupied ∧ s.passCommand addr deal = s.countUntaken) ∨
      (addr ≠ 63 ∧ s.ownAddress addr = false ∧ s.passCommand addr deal = s) := by
  by_cases h63 : addr = 63
  · exact Or.inl ⟨h63, by rw [State.passCommand, if_pos h63]⟩
  · by_cases ho : s.ownAddress addr = true
    · by_cases hp : s.feed.placeFree = true
      · refine Or.inr (Or.inl ⟨?_, by rw [State.passCommand, if_neg h63, if_pos ho, if_pos hp]⟩)
        simp only [State.ownAddress, Repeater.placeFree, Bool.and_eq_true, decide_eq_true_eq] at ho hp
        exact ⟨ho.1.1, ho.1.2, ho.2, hp⟩
      · refine Or.inr (Or.inr (Or.inl ⟨ho, ?_, by rw [State.passCommand, if_neg h63, if_pos ho, if_neg hp]⟩))
        simp only [Repeater.placeFree, decide_eq_true_eq] at hp
        omega
    · refine Or.inr (Or.inr (Or.inr ⟨h63, by simpa using ho, by rw [State.passCommand, if_neg h63, if_neg ho]⟩))

/-- A command's row passes it by its address to its rule; an ASSIGN with address 0 apart (R167, R179). -/
theorem exec_commandRow (addr : Nat) (c : Command) (s : State) (h : addr = 0 → ∀ n, c ≠ .assign n) :
    exec (commandRow addr c) s = .next (s.passCommand addr (dealCommand c)) := by
  cases c <;> try rfl
  simp only [commandRow, exec, execAssign]
  split
  · exact absurd rfl (h ‹_› _)
  · rfl

/-- With no operation held, nothing waits to begin its working phase (R6). -/
theorem State.beginWorking_idle {s : State} (h : s.directory.operation = .idle) : s.beginWorking = s := by
  simp [State.beginWorking, h]

/-- Beginning the working phase changes the operation state alone (R6). -/
theorem State.beginWorking_frame (s : State) :
    s.beginWorking = { s with directory := { s.directory with operation := s.beginWorking.directory.operation } } := by
  unfold State.beginWorking
  split
  · split <;> rfl
  · rfl

/-- A marked intake queue is free of marked messages exactly when it is empty (R6). -/
theorem Intake.markAll_holdsMarked (i : Intake) : i.markAll.holdsMarked = false ↔ i.queue = [] := by
  simp only [Intake.holdsMarked, Intake.markAll, List.any_map]
  cases i.queue <;> simp

/-- An accepted operation marks what stands in the intake queue, and is WORKING at once when nothing does (R5, R6). -/
theorem State.acceptOperation_eq {s : State} (work : DirWork) (route : Route) (h : s.store.walk = none) :
    let held := decide (route = .place)
    s.acceptOperation work route =
      { s with
        intake := { s.intake with queue := s.intake.queue.map fun m => { m with marked := true } }
        directory := { s.directory with operation :=
          if s.intake.queue = [] then .working work held else .draining work held } } := by
  simp only [State.acceptOperation, State.beginWorking]
  by_cases hq : s.intake.queue = []
  · simp [hq, h, Intake.markAll, Intake.holdsMarked]
  · have : ¬ s.intake.markAll.holdsMarked = false := fun hh => hq ((Intake.markAll_holdsMarked _).1 hh)
    rw [if_neg fun hh => this hh.1, if_neg hq]
    rfl

/-- The reply queue is one place fuller after a command of this unit is answered, and is as it was otherwise (R169). -/
theorem State.answer_occupied (s : State) (route : Route) (echo : Nat) (status : Status) (body : ReplyBody)
    (h : route = .place → 1 ≤ s.feed.reserved) : (s.answer route echo status body).feed.occupied = s.feed.occupied := by
  cases route with
  | broadcast => rfl
  | place =>
    have := h rfl
    simp only [State.answer, State.fillPlace, Repeater.occupied, Repeater.filledPlaces, List.length_append,
      List.length_singleton]
    omega

end Sys2Proof.Machine
end

