-- ==== Sys2Proof/Laws/Tapes.lean ====
section
/-! SUPPORT. What an offer and a cancel hand-off can change: the tape they name, and its omission counter; and what a tape's
own operations can do. -/

namespace Sys2Proof.Machine

/-- Everything an offer to a tape can do (R76, R77, R87): merge, start at once, join the queue, or be omitted. -/
theorem Tape.offer_cases (t : Tape) (p : Params) (rate : Nat) (now : Reading) (item : Item) :
    (∃ queue, t.merge item.kind = some queue ∧ t.offer p rate now item = ({ t with queue := queue }, false)) ∨
      (t.ribbon = .idle ∧
        t.offer p rate now item = ({ t with queue := t.queue ++ [item] }.startEvent p rate now, false)) ∨
      (t.ribbon ≠ .idle ∧ t.queue.length < 127 ∧
        t.offer p rate now item = ({ t with queue := t.queue ++ [item] }, false)) ∨
      (t.ribbon ≠ .idle ∧ 127 ≤ t.queue.length ∧ t.offer p rate now item = (t.omit, true)) := by
  unfold Tape.offer
  cases hm : t.merge item.kind with
  | some queue => exact Or.inl ⟨queue, rfl, rfl⟩
  | none =>
    right
    by_cases hr : t.ribbon = .idle
    · exact Or.inl ⟨hr, by simp [hr]⟩
    · right
      by_cases hl : t.queue.length < 127
      · exact Or.inl ⟨hr, hl, by simp [hr, hl]⟩
      · exact Or.inr ⟨hr, by omega, by simp [hr, hl]⟩

/-- An offer to one tape changes that tape and its omission counter alone. -/
theorem State.offerTo_frame (s : State) (id : TapeId) (kind : ItemKind) :
    s.offerTo id kind =
      { s with
        tapeA := (s.offerTo id kind).tapeA
        tapeB := (s.offerTo id kind).tapeB
        counters := { s.counters with
          omissionsA := (s.offerTo id kind).counters.omissionsA
          omissionsB := (s.offerTo id kind).counters.omissionsB } } := by
  unfold State.offerTo
  cases id <;> simp only [State.setTape] <;> split <;> rfl

/-- An offer to tapes changes the tapes and their omission counters alone. -/
theorem State.offer_frame (s : State) (toA toB : Bool) (kind : ItemKind) :
    s.offer toA toB kind =
      { s with
        tapeA := (s.offer toA toB kind).tapeA
        tapeB := (s.offer toA toB kind).tapeB
        counters := { s.counters with
          omissionsA := (s.offer toA toB kind).counters.omissionsA
          omissionsB := (s.offer toA toB kind).counters.omissionsB } } := by
  unfold State.offer
  cases toA <;> cases toB <;> simp only [Bool.false_eq_true, if_false, if_true]
  · exact State.offerTo_frame s .b kind
  · exact State.offerTo_frame s .a kind
  · rw [State.offerTo_frame (s.offerTo .a kind) .b kind, State.offerTo_frame s .a kind]

/-- An offer to one tape looks at nothing of the repeater (R76, R77). -/
theorem State.offerTo_feed (s : State) (id : TapeId) (kind : ItemKind) (f : Repeater) :
    State.offerTo { s with feed := f } id kind = { s.offerTo id kind with feed := f } := by
  cases id
  · cases h : (s.tapeA.offer s.params (s.params.rate .a) s.clock { stamp := s.clock, kind := kind }).2 <;>
      simp [State.offerTo, State.tape, State.setTape, h]
  · cases h : (s.tapeB.offer s.params (s.params.rate .b) s.clock { stamp := s.clock, kind := kind }).2 <;>
      simp [State.offerTo, State.tape, State.setTape, h]

/-- An offer looks at nothing of the repeater, so an arriving character and a declaration's offers can be taken in either order
(R76, R94). -/
theorem State.offer_feed (s : State) (toA toB : Bool) (kind : ItemKind) (f : Repeater) :
    State.offer { s with feed := f } toA toB kind = { s.offer toA toB kind with feed := f } := by
  cases toA <;> cases toB <;> simp [State.offer, State.offerTo_feed]

/-- A cancel hand-off changes the tape it goes to and its omission counter alone (R88). -/
theorem State.cancelOn_frame (s : State) (id : TapeId) (code : Code) (sequence price grid volume : Nat) :
    let t := s.cancelOn id code sequence price grid volume
    t = { s with
      tapeA := t.tapeA
      tapeB := t.tapeB
      counters := { s.counters with omissionsA := t.counters.omissionsA, omissionsB := t.counters.omissionsB } } := by
  simp only
  unfold State.cancelOn
  split
  · cases id <;> rfl
  · cases id <;> rfl
  · exact State.offerTo_frame s id _

/-- An offer leaves the directory as it stands. -/
@[simp] theorem State.offer_directory (s : State) (toA toB : Bool) (kind : ItemKind) :
    (s.offer toA toB kind).directory = s.directory := by rw [State.offer_frame]

/-- An offer leaves the quote store as it stands. -/
@[simp] theorem State.offer_store (s : State) (toA toB : Bool) (kind : ItemKind) :
    (s.offer toA toB kind).store = s.store := by rw [State.offer_frame]

/-- An offer leaves the board as it stands. -/
@[simp] theorem State.offer_board (s : State) (toA toB : Bool) (kind : ItemKind) :
    (s.offer toA toB kind).board = s.board := by rw [State.offer_frame]

/-- An offer leaves the desk as it stands. -/
@[simp] theorem State.offer_desk (s : State) (toA toB : Bool) (kind : ItemKind) :
    (s.offer toA toB kind).desk = s.desk := by rw [State.offer_frame]

/-- A tape from whose queue an item left: its omitted count, if there was one, is a notice at the tail, and is 0 (R78). -/
theorem Tape.departed_eq (t : Tape) (now : Reading) :
    t.departed now =
      { t with
        queue := if t.omitted = 0 then t.queue else t.queue ++ [⟨now, .omitted t.omitted⟩]
        omitted := 0 } := by
  unfold Tape.departed
  obtain ⟨_, _, _, _, _, omitted⟩ := t
  by_cases h : omitted = 0
  · subst h; rfl
  · simp [h]

end Sys2Proof.Machine
end

