-- ==== Sys2Proof/Laws/Feed.lean ====
section
/-! SUPPORT. What a whole message and the head of the intake queue reach: a completed message as the state it is examined in,
and a message that the classifier takes. -/

namespace Sys2Proof.Machine

/-- FEED OUT sending a character changes the forward queue, the filled replies and what is being sent, and no more (R166). -/
theorem Repeater.sendCharacter_frame (f : Repeater) :
    f.sendCharacter =
      { f with forward := f.sendCharacter.forward, filled := f.sendCharacter.filled, out := f.sendCharacter.out } := by
  simp only [Repeater.sendCharacter, Repeater.whenFree, Repeater.startNext, Repeater.startMessage]
  repeat' split
  all_goals rfl

/-! The fields that a character sent leaves alone -/

@[simp] theorem Repeater.sendCharacter_lock (f : Repeater) : f.sendCharacter.lock = f.lock := by
  rw [Repeater.sendCharacter_frame]
@[simp] theorem Repeater.sendCharacter_goodRun (f : Repeater) : f.sendCharacter.goodRun = f.goodRun := by
  rw [Repeater.sendCharacter_frame]
@[simp] theorem Repeater.sendCharacter_faultRun (f : Repeater) : f.sendCharacter.faultRun = f.faultRun := by
  rw [Repeater.sendCharacter_frame]
@[simp] theorem Repeater.sendCharacter_feed (f : Repeater) : f.sendCharacter.feed = f.feed := by
  rw [Repeater.sendCharacter_frame]
@[simp] theorem Repeater.sendCharacter_lossAt (f : Repeater) : f.sendCharacter.lossAt = f.lossAt := by
  rw [Repeater.sendCharacter_frame]
@[simp] theorem Repeater.sendCharacter_arriving (f : Repeater) : f.sendCharacter.arriving = f.arriving := by
  rw [Repeater.sendCharacter_frame]
@[simp] theorem Repeater.sendCharacter_heldFlag (f : Repeater) : f.sendCharacter.heldFlag = f.heldFlag := by
  rw [Repeater.sendCharacter_frame]
@[simp] theorem Repeater.sendCharacter_lastArrival (f : Repeater) : f.sendCharacter.lastArrival = f.lastArrival := by
  rw [Repeater.sendCharacter_frame]
@[simp] theorem Repeater.sendCharacter_timing (f : Repeater) : f.sendCharacter.timing = f.timing := by
  rw [Repeater.sendCharacter_frame]
@[simp] theorem Repeater.sendCharacter_crystalShare (f : Repeater) : f.sendCharacter.crystalShare = f.crystalShare := by
  rw [Repeater.sendCharacter_frame]
@[simp] theorem Repeater.sendCharacter_reserved (f : Repeater) : f.sendCharacter.reserved = f.reserved := by
  rw [Repeater.sendCharacter_frame]
@[simp] theorem Repeater.sendCharacter_errorLimit (f : Repeater) : f.sendCharacter.errorLimit = f.errorLimit := by
  rw [Repeater.sendCharacter_frame]

/-- Several characters sent change no more than one does (R166). -/
theorem Repeater.sendCharacters_frame (f : Repeater) (count : Nat) :
    f.sendCharacters count =
      { f with
        forward := (f.sendCharacters count).forward
        filled := (f.sendCharacters count).filled
        out := (f.sendCharacters count).out } := by
  induction count generalizing f with
  | zero => rfl
  | succ count ih => rw [Repeater.sendCharacters, ih f.sendCharacter]; rw [Repeater.sendCharacter_frame f]

/-- A millisecond of the crystal changes FEED OUT and the crystal's share alone (R166). -/
theorem Repeater.crystalMillisecond_frame (f : Repeater) :
    f.crystalMillisecond =
      { f with
        forward := f.crystalMillisecond.forward
        filled := f.crystalMillisecond.filled
        out := f.crystalMillisecond.out
        crystalShare := f.crystalMillisecond.crystalShare } := by
  unfold Repeater.crystalMillisecond
  split
  · simp only
    rw [Repeater.sendCharacters_frame]
  · rfl

/-- A quiet millisecond changes what times FEED OUT alone (R166). -/
theorem Repeater.quietThrough_frame (f : Repeater) (now : Reading) :
    f.quietThrough now = { f with timing := (f.quietThrough now).timing } := by
  unfold Repeater.quietThrough
  split <;> rfl

/-- The first message of an empty forward queue has no characters to go out (R166). -/
@[simp] theorem moveHead_nil (count : Nat) : moveHead count [] = [] := rfl

/-- A message that goes out loses its first characters (R166). -/
@[simp] theorem moveHead_cons (count : Nat) (head : List FeedChar) (rest : List (List FeedChar)) :
    moveHead count (head :: rest) = head.drop count :: rest := rfl

/-- A message still arriving is 64 characters at most, its flag among them (R162, R166). -/
theorem Repeater.framed_arriving {f : Repeater} (h : f.framed) : f.arriving.length ≤ 64 := by
  have data : ∀ l : List FeedChar, (∀ c ∈ l, c ≠ .flag) → (dataOf l).length = l.length := by
    intro l
    induction l with
    | nil => intro _; rfl
    | cons c l ih => intro hl; cases c <;> simp_all [dataOf]
  unfold Repeater.framed at h
  split at h
  · simp_all
  · rename_i first rest heq
    obtain ⟨-, -, hflag, hlength⟩ := h
    rw [heq]
    have hd := data rest hflag
    cases hr : dataOf rest with
    | nil => simp_all; omega
    | cons kind l =>
      cases l with
      | nil => simp_all; omega
      | cons length more =>
        have := hlength kind length more hr
        simp_all
        omega

/-- How many characters the forward queue holds once what FEED OUT is sending is over (R166). -/
def Repeater.leftCount (f : Repeater) : Nat := (f.afterSending.map List.length).sum + f.arriving.length

/-- Until all of what it is sending is out, FEED OUT is not free (R166). -/
theorem Repeater.whenFree_busy {f : Repeater} (h : f.unsent ≠ []) : f.whenFree = f := by simp [Repeater.whenFree, h]

/-- FEED OUT, free with 256 characters or fewer left and a reply filled, begins that reply (R166). -/
theorem Repeater.whenFree_reply {f : Repeater} (h : f.unsent = []) {first : FilledReply} {more : List FilledReply}
    (hf : f.filled = first :: more) (hl : f.leftCount ≤ 256) :
    f.whenFree =
      { f with forward := f.afterSending, filled := more, out := .reply first.reply first.reply.characters true } := by
  unfold Repeater.whenFree Repeater.startNext
  simp only [h, if_true, hf]
  rw [if_pos (by simpa [Repeater.forwardCount, Repeater.leftCount] using hl)]

/-- FEED OUT, free with no reply that may begin, begins the next whole message, or an idle flag (R166). -/
theorem Repeater.whenFree_message {f : Repeater} (h : f.unsent = []) (hl : f.filled = [] ∨ 256 < f.leftCount) :
    f.whenFree =
      { f with forward := f.afterSending, out := if f.afterSending = [] then .idleFlag [.flag] else .message } := by
  unfold Repeater.whenFree Repeater.startNext
  simp only [h, if_true, Repeater.startMessage]
  split
  · rename_i first more heq
    rw [if_neg]
    rcases hl with hl | hl
    · rw [hl] at heq; cases heq
    · simpa [Repeater.forwardCount, Repeater.leftCount] using hl
  · rfl

/-- FEED OUT, free, keeps R165's bound and has something to send (R166). -/
theorem Repeater.whenFree_bounded {f : Repeater} (ha : f.arriving.length ≤ 255) (h : f.bounded) :
    f.whenFree.bounded ∧ f.whenFree.unsent ≠ [] ∧ f.whenFree.heldFlag = f.heldFlag := by
  by_cases hfree : f.unsent = []
  · obtain ⟨h1, h2, h3, h4, h5, h6⟩ := h
    have hh : (if f.heldFlag = true then 1 else 0) ≤ 1 := by split <;> omega
    have hc : (f.afterSending.map List.length).sum ≤ (f.forward.map List.length).sum := by
      unfold Repeater.afterSending
      split
      · cases f.forward <;> simp
      · exact Nat.le_refl _
    simp only [Repeater.forwardCount] at h1
    by_cases hr : f.filled = [] ∨ 256 < f.leftCount
    · rw [Repeater.whenFree_message hfree hr]
      cases hs : f.afterSending with
      | nil =>
        refine ⟨⟨?_, by simp, by simp [Repeater.afterSending], h4, h5, h6⟩, by simp [Repeater.unsent], rfl⟩
        simp only [Repeater.forwardCount, Repeater.ahead, Repeater.unsent, if_true, List.map_nil, List.sum_nil,
          List.length_singleton]
        omega
      | cons head rest =>
        rw [hs] at h3 hc
        refine ⟨⟨?_, by simp, ?_, h4, h5, h6⟩, ?_, rfl⟩
        · simp only [Repeater.forwardCount, Repeater.ahead, reduceCtorEq, if_false]
          omega
        · intro m hm
          simp only [Repeater.afterSending, reduceCtorEq, if_false, List.drop_one, List.tail_cons] at hm
          exact h3 m (List.mem_cons_of_mem _ hm)
        · simpa [Repeater.unsent] using h3 head List.mem_cons_self
    · obtain ⟨hne, hl⟩ := not_or.1 hr
      obtain ⟨first, more, heq⟩ := List.exists_cons_of_ne_nil hne
      rw [Repeater.whenFree_reply hfree heq (by omega)]
      have := h4 first (by rw [heq]; exact List.mem_cons_self)
      refine ⟨⟨?_, by simp, by simpa [Repeater.afterSending] using h3,
        fun r hm => h4 r (by rw [heq]; exact List.mem_cons_of_mem _ hm), h5, h6⟩,
        by simp [Repeater.unsent, Reply.characters, queued], rfl⟩
      simp only [Repeater.leftCount] at hl
      simp only [Repeater.forwardCount, Repeater.ahead, Repeater.unsent]
      omega
  · rw [Repeater.whenFree_busy hfree]
    exact ⟨h, hfree, rfl⟩

/-- What keeps R165's bound: FEED OUT, sending one character, keeps it and leaves room at 320 for the one character that times
it (R165, R166). -/
theorem Repeater.sendCharacter_bounded {f : Repeater} (ha : f.arriving.length ≤ 255) (h : f.bounded) :
    f.sendCharacter.bounded ∧
      f.sendCharacter.forwardCount + (if f.heldFlag then 1 else 0) + f.sendCharacter.ahead ≤ 319 := by
  obtain ⟨⟨h1, h2, h3, h4, h5, h6⟩, hne, hheld⟩ := Repeater.whenFree_bounded ha h
  rw [← hheld]
  unfold Repeater.sendCharacter
  generalize f.whenFree = g at *
  simp only
  split
  · rename_i unsent ho
    have hlen : unsent ≠ [] := by simpa [Repeater.unsent, ho] using hne
    have := List.length_pos_iff.2 hlen
    simp only [Repeater.forwardCount, Repeater.ahead, Repeater.unsent, ho] at h1
    refine ⟨⟨?_, by simp, by simpa [Repeater.afterSending, ho] using h3, h4, h5, h6⟩, ?_⟩ <;>
      simp only [Repeater.forwardCount, Repeater.ahead, Repeater.unsent, List.length_drop] <;> omega
  · rename_i ho
    cases hg : g.forward with
    | nil => exact absurd hg (h2 ho)
    | cons head rest =>
      have hlen : head ≠ [] := by simpa [Repeater.unsent, ho, hg] using hne
      have := List.length_pos_iff.2 hlen
      simp only [Repeater.forwardCount, Repeater.ahead, ho, hg, List.map_cons, List.sum_cons] at h1
      refine ⟨⟨?_, by simp, by simpa [Repeater.afterSending, ho, hg] using h3, h4, h5, h6⟩, ?_⟩ <;>
        simp only [Repeater.forwardCount, Repeater.ahead, ho, moveHead_cons, List.map_cons, List.sum_cons, List.length_drop] <;>
        omega
  · rename_i reply unsent place ho
    have hlen : unsent ≠ [] := by simpa [Repeater.unsent, ho] using hne
    have := List.length_pos_iff.2 hlen
    simp only [Repeater.forwardCount, Repeater.ahead, Repeater.unsent, ho] at h1
    refine ⟨⟨?_, by simp, by simpa [Repeater.afterSending, ho] using h3, h4, h5, h6⟩, ?_⟩ <;>
      simp only [Repeater.forwardCount, Repeater.ahead, Repeater.unsent, List.length_drop] <;> omega

/-- Several characters sent keep R165's bound (R166). -/
theorem Repeater.sendCharacters_bounded {f : Repeater} (count : Nat) (ha : f.arriving.length ≤ 255) (h : f.bounded) :
    (f.sendCharacters count).bounded := by
  induction count generalizing f with
  | zero => exact h
  | succ count ih =>
    exact ih (by simpa using ha) (Repeater.sendCharacter_bounded ha h).1

/-- A millisecond that the crystal times keeps R165's bound (R166). -/
theorem Repeater.crystalMillisecond_bounded {f : Repeater} (ha : f.arriving.length ≤ 255) (h : f.bounded) :
    f.crystalMillisecond.bounded := by
  unfold Repeater.crystalMillisecond
  split
  · rename_i ht
    obtain ⟨h1, h2, h3, h4, h5, h6⟩ := Repeater.sendCharacters_bounded ((f.crystalShare + crystalStep) / 55) ha h
    refine ⟨h1, h2, h3, h4, Nat.mod_lt _ (by decide), fun hh => ?_⟩
    simp only at hh
    rw [Repeater.sendCharacters_frame, ht] at hh
    cases hh
  · exact h

/-- An arrival keeps R165's bound and leaves room at 320 for the character that came (R165, R166). -/
theorem Repeater.arrivalNoted_bounded {f : Repeater} (now : Reading) (ha : f.arriving.length ≤ 255) (h : f.bounded) :
    (f.arrivalNoted now).bounded ∧
      (f.arrivalNoted now).forwardCount + (if f.heldFlag then 1 else 0) + (f.arrivalNoted now).ahead ≤ 319 := by
  obtain ⟨⟨h1, h2, h3, h4, -, -⟩, hr⟩ := Repeater.sendCharacter_bounded ha h
  exact ⟨⟨h1, h2, h3, h4, Nat.succ_pos 54, fun _ => rfl⟩, hr⟩

/-- A flag dropped changes the held flag alone (R190). -/
theorem Repeater.flagDropped_frame (f : Repeater) (now : Reading) :
    f.flagDropped now = { f with heldFlag := (f.flagDropped now).heldFlag } := rfl

/-- The data of a message in the forward queue is its characters (R165). -/
@[simp] theorem dataOf_map (bytes : List Byte) : dataOf (bytes.map .data) = bytes := by
  induction bytes <;> simp_all [dataOf]

/-- The data of a message in the forward queue is its characters, its flag left out (R165). -/
@[simp] theorem dataOf_queued (bytes : List Byte) : dataOf (queued bytes) = bytes := by simp [queued, dataOf]

/-- A message takes one character more in the forward queue than its length: its flag (R165, R190). -/
@[simp] theorem length_queued (bytes : List Byte) : (queued bytes).length = bytes.length + 1 := by simp [queued]

/-- The check character makes a message's or a frame's characters sum to 0 (R162, section 10.4). -/
theorem characterSum_checked (front : List Byte) : characterSum (front ++ [- characterSum front]) = 0 := by
  simp only [characterSum, List.foldl_append, List.foldl_cons, List.foldl_nil]
  exact BitVec.add_right_neg _

/-- A character that completes a message has the whole of it received (R162, R165). -/
theorem exec_feedMessageReceived (s : State) (front : List Byte) (last : Byte) (h : s.completedBy front) :
    exec (.feedMessageReceived last) s = .next (s.arrived.receiveWhole (front ++ [last])) := by
  obtain ⟨h1, h2, kind, length, more, rfl, h4⟩ := h
  have hc : classOfData s.flagHeld s.feed.arriving last = .completes := by
    rw [h1]
    simp [classOfData, queued, dataOf, h4]
  have hr : s.feed.hasRoom 1 = true := by
    simp only [Repeater.hasRoom, decide_eq_true_eq]
    omega
  rw [h1] at hc
  simp only [exec, execFeedMessageReceived, State.classOf, hr, if_true, h1, dataOf_queued]
  rw [if_pos hc]
  rfl

/-- A message whose effect leaves the directory IDLE is all that the classifier's take does (R173, R174). -/
theorem exec_classifierTake (s : State) (m : IntakeMessage) (rest : List IntakeMessage) (h : s.classifies m rest) :
    let taken := { s with intake := { s.intake with queue := rest } }
    (taken.applyMessage m.sequence m.message).directory.operation = .idle →
      exec .classifierTake s = .next
        (if messageSound s.store.session m.message = false then
          { taken with counters := { s.counters with malformed := bump s.counters.malformed 1 } }
         else taken.applyMessage m.sequence m.message) := by
  intro taken hd
  obtain ⟨h1, h2, h3, h4⟩ := h
  have : s.mayTake m = true := by simp [State.mayTake, Directory.isWorking, Directory.isDraining, h3, h4]
  simp only [exec, execClassifierTake, h2, this, if_true, State.classify, h1, reduceCtorEq, if_false]
  split
  · rw [State.beginWorking_idle]; exact h3
  · rw [State.beginWorking_idle]; exact hd

end Sys2Proof.Machine
end

