-- ==== Sys2Proof/Laws/Pages.lean ====
section
/-! SUPPORT. Pages and the requests that wait for lookups: what a page may still send as lines leave it or are taken from it,
what changing a station's pages leaves alone, and when a held request is served. -/

namespace Sys2Proof.Machine

/-! ### Changing pages (R17, R150, R151) -/

@[simp] theorem Desk.mapPages_stations (d : Desk) (ofStation : Nat → Bool) (f : Page → Page) :
    (d.mapPages ofStation f).stations = d.stations := rfl

/-- Changing pages changes the transaction and the slot alone (R17). -/
theorem Desk.mapPages_frame (d : Desk) (ofStation : Nat → Bool) (f : Page → Page) :
    d.mapPages ofStation f =
      { d with transaction := (d.mapPages ofStation f).transaction, slot := (d.mapPages ofStation f).slot } := rfl

/-- A transaction after a change of pages keeps everything but its page (R17). -/
theorem Desk.mapPages_transaction {d : Desk} {ofStation : Nat → Bool} {f : Page → Page} {t : Transaction}
    (h : (d.mapPages ofStation f).transaction = some t) :
    ∃ u, d.transaction = some u ∧ t = { u with page := if ofStation u.station then u.page.map f else u.page } := by
  simp only [Desk.mapPages, Option.map_eq_some_iff] at h
  obtain ⟨u, hu, rfl⟩ := h
  refine ⟨u, hu, ?_⟩
  split <;> rfl

/-- A suspended page after a change of pages keeps everything but the page itself (R17). -/
theorem Desk.mapPages_slot {d : Desk} {ofStation : Nat → Bool} {f : Page → Page} {p : SuspendedPage}
    (h : (d.mapPages ofStation f).slot = some p) :
    ∃ q, d.slot = some q ∧ p = { q with page := if ofStation q.station then f q.page else q.page } := by
  simp only [Desk.mapPages, Option.map_eq_some_iff] at h
  obtain ⟨q, hq, rfl⟩ := h
  refine ⟨q, hq, ?_⟩
  split <;> rfl

/-! ### How many lines a page may still have (R145, R155, R158) -/

/-- No page gains lines when entries leave its station's list (R17, R150). -/
theorem Page.withoutEntries_room (gone : Nat → Bool) (page : Page) : (page.withoutEntries gone).room ≤ page.room := by
  cases page <;> simp [Page.withoutEntries, Page.room, List.length_filter_le]

/-- No page gains lines when a record is freed (R17). -/
theorem Page.withoutRecord_room (r : Nat) (page : Page) : (page.withoutRecord r).room ≤ page.room := by
  cases page with
  | quote record left => simp only [Page.withoutRecord]; split <;> simp [Page.room]
  | recent record left => simp only [Page.withoutRecord]; split <;> simp [Page.room]
  | status _ _ _ _ => simp [Page.withoutRecord, Page.withoutEntries, Page.room]
  | watch _ => simp [Page.withoutRecord, Page.withoutEntries, Page.room, List.length_filter_le]
  | changes _ _ => simp [Page.withoutRecord, Page.withoutEntries, Page.room]
  | alerts _ => simp [Page.withoutRecord, Page.withoutEntries, Page.room]

/-- The print found in a ring for the first fixed number that still stands leaves fewer numbers (R147). -/
theorem nextPrint_shorter {ring : List Print} {left rest : List Nat} {p : Print} (h : nextPrint ring left = some (p, rest)) :
    p ∈ ring ∧ rest.length < left.length := by
  induction left with
  | nil => cases h
  | cons q left ih =>
    simp only [nextPrint] at h
    split at h
    · next hf => cases h; exact ⟨List.mem_of_find?_eq_some hf, Nat.lt_succ_self _⟩
    · exact ⟨(ih h).1, Nat.lt_succ_of_lt (ih h).2⟩

/-- The entry found on a list for the first fixed record that still stands leaves fewer records (R148). -/
theorem nextFixedEntry_shorter {watch : List WatchEntry} {left rest : List Nat} {e : WatchEntry}
    (h : nextFixedEntry watch left = some (e, rest)) : e ∈ watch ∧ rest.length < left.length := by
  induction left with
  | nil => cases h
  | cons r left ih =>
    simp only [nextFixedEntry] at h
    split at h
    · next hf => cases h; exact ⟨List.mem_of_find?_eq_some hf, Nat.lt_succ_self _⟩
    · exact ⟨(ih h).1, Nat.lt_succ_of_lt (ih h).2⟩

/-- Each line takes at least one from what a page may still have, so a page ends within its twelve (R145, R155, R158). -/
theorem State.nextItem_room {s : State} {n : Nat} {page : Page} {item : List LineField × LineSource × Page}
    (h : s.nextItem n page = some item) : item.2.2.room + 1 ≤ page.room := by
  cases page with
  | status _ _ _ _ => cases h
  | quote r left =>
    simp only [State.nextItem] at h
    split at h
    · cases h; simp [Page.room]
    · cases h
  | recent r left =>
    simp only [State.nextItem] at h
    split at h
    · cases h
    · obtain ⟨x, hx, rfl⟩ := Option.map_eq_some_iff.1 h
      exact (nextPrint_shorter hx).2
  | watch left =>
    simp only [State.nextItem] at h
    split at h
    · cases h
    · next hx =>
      obtain ⟨q, _, rfl⟩ := Option.map_eq_some_iff.1 h
      exact (nextFixedEntry_shorter hx).2
  | changes sent lines =>
    simp only [State.nextItem] at h
    split at h
    · cases h
    · split at h
      · cases h
      · obtain ⟨q, _, rfl⟩ := Option.map_eq_some_iff.1 h
        simp only [Page.room]
        omega
  | alerts count =>
    simp only [State.nextItem] at h
    split at h
    · cases h
    · split at h
      · cases h
      · obtain ⟨q, _, rfl⟩ := Option.map_eq_some_iff.1 h
        simp only [Page.room]
        omega

/-! ### Requests held for a lookup (R3, R128) -/

/-- No held request, or lookups stopped: nothing is served (R128). -/
theorem State.serveHeld_none {s : State} (h : s.noRequestHeld ∨ s.lookupsStopped = true) : s.serveHeld = s := by
  unfold State.serveHeld
  split
  · rfl
  · next t ht =>
    split
    · rfl
    · next request hr =>
      rcases h with h | h
      · rw [h t ht] at hr; cases hr
      · simp [h]

/-- A held request is served when lookups go on (R128). -/
theorem State.serveHeld_some {s : State} {t : Transaction} {request : LookupRequest} (ht : s.desk.transaction = some t)
    (hr : t.held = some request) (h : s.lookupsStopped = false) : s.serveHeld = s.serveLookup t request := by
  simp [State.serveHeld, ht, hr, h]

/-- What serving a request gives does not rest on the request being held, nor on a window (R128). -/
theorem State.serveLookup_held (s : State) (u : Transaction) (held : Option LookupRequest) (window : Option Reading)
    (request : LookupRequest) :
    ({ s with desk := { s.desk with transaction := some { u with held := held, window := window } } } : State).serveLookup
        { u with held := held, window := window } request = s.serveLookup u request := by
  cases request <;> simp only [State.serveLookup] <;> cases lookupCode s.directory.entries _ <;> try rfl

/-- A completion is DONE placed and IDLE again, and then the held request served (R5, R7, R128). -/
theorem State.completeOperation_eq (s : State) (held : Bool) (echo : Nat) (body : ReplyBody) :
    s.completeOperation held echo body = (s.operationDone held echo body).serveHeld := by
  cases held <;> rfl

end Sys2Proof.Machine
end

