-- ==== Sys2Proof/Tests/Slice0.lean ====
section
/-! SUPPORT. The model's own tests: ill-formed terms that WellFormed refuses, characters written out from Chapter 10, one-step
checks with figures worked in the manual, and a state that meets the hypotheses of each statement. -/

namespace Sys2Proof.Tests
set_option Elab.async false
open Sys2Proof.Machine

/-- The state a command answers, if it answers one. -/
def next? (c : Instr) (s : State) : Option State :=
  match exec c s with
  | .next t => some t
  | _ => none

/-- What a command's next state shows, by a reading of it. -/
def shows {α : Type} (c : Instr) (s : State) (read : State → α) : Option α := (next? c s).map read

/-! ### Ill-formed terms, one a check (R191, R192, Tables 10-1 to 10-3) -/

/-- Arguments of LOAD SYMBOL that its fields can carry: section 1.8. -/
def loadXY : LoadArgs where
  code := "XY".toList
  record := 40
  grid := 16
  maskA := true
  maskB := false
  cells := [(1, 12)]
  settings := { t := 16, h := 20, n := 0, k := 3 }
  prevClose := some 905

theorem test_wellFormed_load : (Command.loadSymbol loadXY).wellFormed = true := by decide
theorem test_illFormed_address : (Instr.ackRestart 256).wellFormed = false := by decide
theorem test_illFormed_number : (Instr.unknownCommand 5 256 []).wellFormed = false := by decide
theorem test_illFormed_body : (Instr.unknownCommand 5 99 (List.replicate 60 0)).wellFormed = false := by decide
theorem test_illFormed_code_length : (Command.dropAlias "ABCDEF".toList).wellFormed = false := by decide
theorem test_illFormed_code_character : (Command.dropAlias [Char.ofNat 300]).wellFormed = false := by decide
theorem test_illFormed_code_space : (Command.dropAlias "AB ".toList).wellFormed = false := by decide
theorem test_illFormed_settings : (Command.setMonitor 0 ⟨65536, 0, 1, 0⟩).wellFormed = false := by decide
theorem test_illFormed_load_record : (Command.loadSymbol { loadXY with record := 65536 }).wellFormed = false := by decide
theorem test_illFormed_load_cells : (Command.loadSymbol { loadXY with cells := [(0, 1), (0, 2), (0, 3)] }).wellFormed = false := by
  decide
theorem test_illFormed_load_cell : (Command.loadSymbol { loadXY with cells := [(255, 0)] }).wellFormed = false := by decide
theorem test_illFormed_load_close : (Command.loadSymbol { loadXY with prevClose := some 16777216 }).wellFormed = false := by decide
theorem test_illFormed_cell_record : (Command.setCell 0 0 (some 65535)).wellFormed = false := by decide
theorem test_illFormed_watch_record : (Command.loadWatch 0 [⟨512, none, none, false⟩]).wellFormed = false := by decide
theorem test_illFormed_watch_level : (Command.loadWatch 0 [⟨0, some 16777216, none, false⟩]).wellFormed = false := by decide
theorem test_illFormed_watch_length :
    (Command.loadWatch 0 (List.replicate 12 ⟨0, some 1, none, false⟩)).wellFormed = false := by decide
theorem test_illFormed_side : (MarketMsg.quote ['A'] (some (1, 65536)) none).wellFormed = false := by decide
theorem test_illFormed_print : (MarketMsg.print ['A'] 16777216 1 0).wellFormed = false := by decide
theorem test_illFormed_figures : (MarketMsg.figures ['A'] 1 none none none (some 4294967296)).wellFormed = false := by decide
theorem test_illFormed_notice_empty : (MarketMsg.notice []).wellFormed = false := by decide
theorem test_illFormed_notice_long : (MarketMsg.notice (List.replicate 60 'A')).wellFormed = false := by decide
theorem test_illFormed_place : (Instr.replyExpiry 4).wellFormed = false := by decide
theorem test_illFormed_hold : (Instr.holdExpiry 512).wellFormed = false := by decide
theorem test_illFormed_gap : (Instr.boardAnswerGap [171, 0, 1, 0]).wellFormed = false := by decide
theorem test_illFormed_slot : (Instr.slotAnswer 16).wellFormed = false := by decide
theorem test_illFormed_stream : (Instr.streamTimerExpiry 16).wellFormed = false := by decide
theorem test_illFormed_answer : (Instr.answer 256).wellFormed = false := by decide
theorem test_illFormed_level : (Instr.watchAdd ['A'] (some 16777216) none false).wellFormed = false := by decide

/-! ### Characters written out from Tables 10-1 to 10-3 -/

/-- ASSIGN 1 on address 0: kind 64, length 6, address 0, number 23, candidate, check. -/
theorem test_assign_characters : commandMessage 0 (.assign 1) = [64, 6, 0, 23, 1, 162] := by decide +kernel

/-- LOAD SYMBOL XY of section 1.8 as Table 10-3 lays its 23 body characters out: mask A 1, slot 2 empty, 905 = 3 × 256 + 137. -/
theorem test_load_characters :
    parseCommand 4 [88, 89, 32, 32, 32, 0, 40, 16, 1, 1, 12, 255, 0, 0, 16, 0, 20, 0, 3, 1, 0, 3, 137] =
      some (.loadSymbol loadXY) := by decide +kernel

/-- SET CELL 1.7 to record 37, and with the mark 65,535. -/
theorem test_setCell_characters : parseCommand 8 [1, 7, 0, 37] = some (.setCell 1 7 (some 37)) ∧
    parseCommand 8 [1, 7, 255, 255] = some (.setCell 1 7 none) := by decide +kernel

/-- LOAD WATCH of R192: record 37 with above, below and move is 37 + 512 + 1,024 + 2,048 = 14 × 256 + 37. -/
theorem test_loadWatch_characters :
    parseCommand 10 [3, 1, 14, 37, 0, 14, 128, 0, 14, 64] = some (.loadWatch 3 [⟨37, some 3712, some 3648, true⟩]) := by
  decide +kernel

/-- A body that does not agree with its command is none (R180, R191). -/
theorem test_command_length : parseCommand 1 [0] = none ∧ parseCommand 24 [] = none ∧ parseCommand 10 [3, 1, 2, 0] = none := by
  decide +kernel

/-- PRINT XYZ 3,672 × 2,300 REGULAR of section 2.10.1 on sequence 2210, from kind to check. -/
theorem test_print_characters :
    marketMessage 2210 (.print "XYZ".toList 3672 2300 0) =
      [17, 17, 8, 162, 88, 89, 90, 32, 32, 0, 14, 88, 0, 8, 252, 0, 127] := by decide +kernel

/-- QUOTE with the ask alone present, FIGURES with high and volume, CANCEL, HALT, TIME (Table 10-2). -/
theorem test_market_characters :
    parseMarket 18 [65, 32, 32, 32, 32, 2, 9, 9, 9, 9, 9, 0, 1, 0, 0, 5] = some (.quote ['A'] none (some (256, 5))) ∧
      parseMarket 22 [65, 32, 32, 32, 32, 10, 0, 0, 7, 1, 1, 1, 0, 0, 9, 1, 1, 1, 0, 0, 1, 0] =
        some (.figures ['A'] 7 none (some 9) none (some 256)) ∧
      parseMarket 19 [65, 32, 32, 32, 32, 0, 3, 0, 0, 7, 0, 0, 2] = some (.cancel ['A'] 3 7 2) ∧
      parseMarket 20 [65, 32, 32, 32, 32, 1] = some (.halt ['A'] 1) ∧ parseMarket 26 [10, 15, 7] = some (.time 10 15 7) := by
  decide +kernel

/-- CLEAR WATCH's DONE from unit 5 for station 3: kind 65, length 7, address 5, echo 11, status 0, station 3, check (Table
10-1). -/
theorem test_reply_characters : Reply.characters ⟨5, 11, .done, .station 3⟩ =
    [.flag, .data 65, .data 7, .data 5, .data 11, .data 0, .data 3, .data 165] := by decide +kernel

/-- One print of a ring: 2210 = 8 × 256 + 162, 3,672 = 14 × 256 + 88, 2,300 = 8 × 256 + 252, SLD (Table 10-4). -/
theorem test_ring_characters : printCharacters ⟨2210, 3672, 2300, .sld⟩ = [8, 162, 0, 14, 88, 0, 8, 252, 2] := by decide +kernel

/-- A SET MODE request and other frames written out from section 10.4: read back as their rows, with a wrong echo
and a wrong check as CHECK ERROR, and cut after three characters as no whole frame. -/
theorem test_frame_characters :
    let s := { State.reset with desk := { State.reset.desk with
      transaction := some { station := 3, kind := .request, page := none, nextLine := 0, output := .nothing, window := none, held := none } } }
    let setMode : List (Option Byte) := [some 12, some 3, some 6, some 1, some 15, some 219]
    s.frameRow 0 setMode = .setMode 1 15 ∧
      s.frameRow 0 ([12, 3, 4, 65, 66, 32, 32, 32, 6, 0, 14, 64, 182].map some) = .watchAdd "AB".toList none (some 3648) true ∧
      s.frameRow 0 [some 12, some 4, some 3, some 237] = .checkError ∧ s.frameRow 0 [some 12, some 3, some 3, some 0] = .checkError ∧
      s.frameRow 0 (setMode.take 3) = .deskFrameIncomplete ∧
      s.frameRow 0 [some 13, some 7, some 236] = .receipt 7 ∧ s.frameRow 11 [some 9, some 2, some 245] = .slotAnswer 11 := by
  decide +kernel

/-! ### States of the worked cases -/

/-- A RUNNING unit 5 in lock. -/
def unit5 : State :=
  { State.reset with
    manager := { straps := 5, address := 5, source := .straps, state := .running, cause := .power }
    feed := { State.reset.feed with lock := .locked, goodRun := 2, lossAt := none } }

/-- Record 37 of Table 2-2. -/
def xyz : QuoteRecord where
  code := "XYZ".toList
  grid := 8
  maskA := true
  maskB := false
  cells := [71]
  halted := none
  prevClose := some 3664
  last := some (3680, ⟨10, 14, 52⟩)
  reference := some 3672
  tick := .up
  opening := some 3656
  high := some 3688
  low := some 3648
  volume := 41200
  bid := none
  ask := none
  ring := [⟨2060, 3656, 400, .regular⟩, ⟨2101, 3664, 500, .regular⟩, ⟨2150, 3640, 200, .sld⟩, ⟨2188, 3680, 1000, .regular⟩]
  traded := true
  monitor := ⟨⟨32, 8, 2, 3⟩, .calm, 0, some 938496, none, none⟩

/-- Record 4, AB, with cells 0.3 and 0.9 and no print yet. -/
def ab : QuoteRecord where
  code := "AB".toList
  grid := 8
  maskA := false
  maskB := true
  cells := [3, 9]
  halted := none
  prevClose := some 1200
  last := none
  reference := none
  tick := .noTick
  opening := none
  high := none
  low := none
  volume := 0
  bid := none
  ask := none
  ring := []
  traded := false
  monitor := ⟨⟨0, 0, 1, 0⟩, .calm, 0, some 307200, none, none⟩

/-- Station 3 of section 7.10, with one entry for XYZ. -/
def station3 : Station :=
  { Station.fresh with presence := .attached, watch := [⟨37, some 3712, some 3648, true, false⟩] }

/-- Unit 5 with AB, XYZ and the second code XZ of XYZ, their cells and station 3. -/
def floor : State :=
  { unit5 with
    directory := { entries := [⟨"AB".toList, 4, .primary⟩, ⟨"XYZ".toList, 37, .primary⟩, ⟨"XZ".toList, 37, .aliased⟩]
                   operation := .idle }
    store := { unit5.store with records := [(4, ab), (37, xyz)], session := .opened, floor := ⟨10, 15, 7⟩ }
    board := { unit5.board with cellMap := [(3, 4), (9, 4), (71, 37)] }
    desk := { unit5.desk with stations := unit5.desk.stations.set 3 station3 } }

/-- A market message at the head of the intake queue. -/
def withHead (s : State) (sequence : Nat) (m : MarketMsg) : State :=
  { s with intake := { s.intake with queue := [⟨sequence, m, false⟩] } }

/-- The print of section 2.10.1 waiting. -/
def printWaits : State := withHead floor 2210 (.print "XYZ".toList 3672 2300 0)

/-- A transaction with station 3. -/
def withStation3 : Transaction :=
  { station := 3, kind := .request, page := none, nextLine := 0, output := .nothing, window := some 500, held := none }

/-- The desk of `floor` on a line state with a transaction and the two signals. -/
def onLine (s : State) (line : LineState) (u : Transaction) (attn busy : Bool) : State :=
  { s with desk := { s.desk with line := line, transaction := some u, attn := attn, busy := busy } }

/-- Station 3 in REQUEST. -/
def requesting : State := onLine floor .request withStation3 false true

/-! ### Texts (R23, R25, R26, Table 2-3, Table 4-6) -/

theorem test_priceText : priceText 8 3648 = "57".toList ∧ priceText 8 3672 = "57 3/8".toList ∧ priceText 8 24 = "3/8".toList ∧
    priceText 8 1048575 = "16383 7/8".toList ∧ priceText 64 639999 = "9999 63/64".toList ∧ priceText 8 3 = "0".toList := by
  decide +kernel
theorem test_changeText : changeText 8 8 = "+1/8".toList ∧ changeText 16 70 = "+1 1/16".toList ∧ changeText 8 (-128) = "−2".toList ∧
    changeText 8 (-9) = "−1/8".toList ∧ changeText 8 (-5) = "−0".toList ∧ changeText 8 0 = "UNCH".toList ∧
    changeText 8 (-64064) = "−1001".toList := by decide +kernel
theorem test_itemText : itemText 0 100 [] (.print "XYZ".toList 3672 8 2300 .regular [2210]) = "XYZ 23s 57 3/8  ".toList ∧
    itemText 2 100 [] (.print "AB".toList 1232 8 15000 .regular [415]) = "AB 15000SHS 19 1/4  ".toList ∧
    itemText 2 100 ["XYZ".toList] (.print "XYZ".toList 3680 8 500 .regular [419]) = "XYZ 7 1/2  ".toList ∧
    itemText 3 100 [] (.cxl "XYZ".toList 3680 8) = "XYZ CXL 57 1/2  ".toList ∧
    itemText 0 100 [] (.omitted 7) = "OMITTED 7  ".toList := by decide +kernel
theorem test_ribbonTime : ribbonTime 16 120 = 134 ∧ ribbonTime 10 120 = 84 ∧ ribbonTime 16 20 = 800 := by decide
theorem test_cell_overflow :
    cellPrice { xyz with grid := 64, last := some (640000, ⟨0, 0, 0⟩) } = .dashes [] ∧
      cellChange { xyz with last := some (1, ⟨0, 0, 0⟩), prevClose := some 64065 } = .dashes ['−'] ∧
      cellVolume 4294967295 = 999999 := by decide +kernel

/-! ### One step with figures of the manual -/

/-- Section 2.10.1: the tick, last, volume, ring, baseline, cell, mark and tape text after the print. -/
theorem test_print : shows .classifierTake printWaits (fun t => t.record? 37) = some (some { xyz with
    tick := .down, reference := some 3680, last := some (3672, ⟨10, 15, 7⟩), volume := 43500,
    ring := [⟨2101, 3664, 500, .regular⟩, ⟨2150, 3640, 200, .sld⟩, ⟨2188, 3680, 1000, .regular⟩, ⟨2210, 3672, 2300, .regular⟩],
    monitor := ⟨⟨32, 8, 2, 3⟩, .calm, 0, some 938688, none, none⟩ }) := by decide +kernel
theorem test_print_hands_on : shows .classifierTake printWaits (fun t => (t.board.dirty, (t.watchOf 3).map WatchEntry.pending,
    t.tapeA.ribbon)) = some ([71], [true], .item "XYZ 23s 57 3/8  ".toList 134) := by decide +kernel

/-- Section 2.10.2: the newest regular print cancelled, and a print that has left the ring. -/
theorem test_cancel : shows .classifierTake (withHead floor 2215 (.cancel "XYZ".toList 2188 3680 1000)) (fun t =>
    (t.record? 37).map fun q => (q.last, q.tick, q.reference, q.volume)) =
      some (some (some (3664, ⟨10, 14, 52⟩), .noTick, none, 40200)) := by decide +kernel
theorem test_cancel_not_found : shows .classifierTake (withHead floor 2217 (.cancel "XYZ".toList 2010 3656 400)) (fun t =>
    ((t.record? 37).map fun q => (q.last, q.volume), t.watchOf 3)) =
      some (some (some (3680, ⟨10, 14, 52⟩), 40800), [⟨37, some 3712, some 3648, true, false⟩]) := by decide +kernel

/-- Section 2.10.3: HALT with its alert at 3,680, and RESUME with the baseline 3,680 × 256. -/
theorem test_halt : shows .classifierTake (withHead floor 2230 (.halt "XYZ".toList 1)) (fun t =>
    ((t.record? 37).map QuoteRecord.halted, t.alertsOf 3)) =
      some (some (some .imbalance), [⟨37, .halt, some 3680⟩]) := by decide +kernel
theorem test_resume : shows .classifierTake (withHead (floor.setRecord 37 { xyz with halted := some .news }) 2251
    (.resume "XYZ".toList)) (fun t => (t.record? 37).map fun q => (q.halted, q.monitor.baseline)) =
      some (some (none, some 942080)) := by decide +kernel

/-- Section 3.7.1: two prints past the entry level bring ACTIVE, UP, with the hold deadline 900,000 ms on. -/
theorem test_monitor_arms : (Monitor.take ⟨⟨32, 8, 2, 3⟩, .calm, 0, some 938688, none, none⟩ 3728 0 15) =
    (⟨⟨32, 8, 2, 3⟩, .arming, 1, some 940648, none, none⟩, false) := by decide +kernel
theorem test_monitor_enters : (Monitor.take ⟨⟨32, 8, 2, 3⟩, .arming, 1, some 940648, none, none⟩ 3736 7340200 15) =
    (⟨⟨32, 8, 2, 3⟩, .active, 0, some 940648, some .up, some 8240200⟩, true) := by decide +kernel
/-- Section 3.7.3: a negative step truncated toward zero. -/
theorem test_monitor_tracks : filteredBaseline 3 3664 940827 = 940472 := by decide +kernel

/-- Section 3.7.4: the hold expires on last 3,712. -/
theorem test_holdExpiry : shows (.holdExpiry 37) ({ floor with clock := 8240200 }.setRecord 37 { xyz with
    last := some (3712, ⟨0, 0, 0⟩), monitor := ⟨⟨32, 8, 2, 3⟩, .active, 0, some 940648, some .up, some 8240200⟩ })
      (fun t => (t.record? 37).map QuoteRecord.monitor) =
    some (some ⟨⟨32, 8, 2, 3⟩, .calm, 0, some 950272, none, none⟩) := by decide +kernel

/-- Section 1.8: the settings clamped at the taking, and the entry joining between B and XYZ at the completion. -/
theorem test_loadSymbol : shows (.loadSymbol 5 loadXY) unit5 (fun t => t.directory.operation) =
    some (.working (.load { loadXY with settings := ⟨16, 15, 1, 3⟩ }) true) := by decide +kernel
theorem test_loadSymbolCompletion : shows .loadSymbolCompletion
    { floor with directory := { floor.directory with operation := .working (.load { loadXY with settings := ⟨16, 15, 1, 3⟩ }) false } }
      (fun t => (t.directory.entries.map fun e => (e.code, e.record), t.board.dirty, (t.record? 40).map fun q => q.monitor.baseline)) =
    some ([("AB".toList, 4), ("XY".toList, 40), ("XYZ".toList, 37), ("XZ".toList, 37)], [76], some (some 231680)) := by
  decide +kernel

/-- Section 1.9: both entries of the record leave, its cell is dirty, and the station loses its entry. -/
theorem test_dropSymbolCompletion : shows .dropSymbolCompletion
    { floor with directory := { floor.directory with operation := .working (.dropSymbol "XYZ".toList 37) false } }
      (fun t => (t.directory.entries.map Entry.record, t.board.dirty, t.watchOf 3, t.record? 37)) =
    some ([4], [71], [], none) := by decide +kernel

/-- Section 9.7: level 2's enter of 50 is raised to level 1's 60, and its leave lowered to 59. -/
theorem test_setParameter_level : shows (.setParameter 5 8 50) unit5 (fun t => (t.params.enter2, t.params.leave2)) =
    some (60, 59) := by decide +kernel
theorem test_setParameter_clamps : shows (.setParameter 63 4 700) unit5 (fun t => t.params.ribbonRateA) = some 600 := by
  decide +kernel

/-- Section 9.7: an unassigned unit takes candidate 1 and passes ASSIGN 2. -/
theorem test_assign : shows (.assign 0 1) { State.reset with feed := { State.reset.feed with
    forward := [queued [64, 6, 0, 23, 1, 162]] } } (fun t => (t.manager.address, t.feed.forward)) =
      some (1, [queued [64, 6, 0, 23, 2, 161]]) := by decide +kernel

/-- Section 5.9: the block takes the cells of panel 1 in queue order, and the others keep their places. -/
theorem test_blockAssembly : shows .blockAssembly { unit5 with clock := 500000, board := { unit5.board with
    dirty := [71, 3, 76, 133, 84, 9] } } (fun t => (t.board.block.map fun b => (b.panel, b.cells, b.deadline), t.board.dirty)) =
      some (some (1, [71, 76, 84], 500020), [3, 133, 9]) := by decide +kernel

/-- Section 4.11: at lateness 121 the level rises to 2 and "DIGITS DELETED" starts for 800 ms. -/
theorem test_ribbonCompletion : shows (.ribbonCompletion .a) { unit5 with
    clock := 1000000
    params := { unit5.params with ribbonRateA := 20 }
    tapeA := { unit5.tapeA with
      ribbon := .item [] 1000000
      queue := [⟨878500, .print "XYZ".toList 3672 8 2300 .regular [412]⟩] } } (fun t => (t.tapeA.level, t.tapeA.ribbon)) =
    some (2, .notice "DIGITS DELETED  ".toList 1000800) := by decide +kernel

/-- Section 8.9: lock lost at 5,000,250 sets the deadline 2.0 s on. -/
theorem test_lossOfLock : shows .lossOfLockOnSilence { unit5 with
    clock := 5000250, feed := { unit5.feed with lastArrival := 5000000 } } (fun t => (t.feed.lock, t.feed.lossAt)) =
      some (.searching, some 5002250) := by decide +kernel

/-- Section 8.9: 3002 after 2987 is a gap of 14. -/
theorem test_sequence_gap :
    (State.checkSequence { unit5 with intake := { expectation := some 2987, queue := [] } } 3002 .dayStart).counters.missed = 14 := by
  decide +kernel

/-- Section 6.10, steps 1 and 4: the highest claimant without a mark, and all marks cleared when every claimant has one. -/
theorem test_claimRound : shows .claimRoundCompletion { floor with desk := { floor.desk with
    line := .claim, answered := [3, 12]
    stations := floor.desk.stations.set 12 { Station.fresh with presence := .attached, served := true } } }
      (fun t => (t.desk.line, t.desk.transaction.map Transaction.station)) = some (.selecting, some 3) := by decide +kernel
theorem test_claimRound_marks_cleared : shows .claimRoundCompletion { floor with desk := { floor.desk with
    line := .claim, answered := [12]
    stations := (floor.desk.stations.set 3 { station3 with served := true }).set 12
      { Station.fresh with presence := .attached, served := true } } }
      (fun t => t.desk.stations.map Station.served) =
    some [false, false, false, false, false, false, false, false, false, false, false, false, true, false, false, false] := by
  decide +kernel

/-- Section 7.10: a print at 3,728 fires the above level, which becomes absent. -/
theorem test_alert_above : shows .classifierTake (withHead (floor.setRecord 37 { xyz with last := some (3672, ⟨0, 0, 0⟩) }) 2260
    (.print "XYZ".toList 3728 800 0)) (fun t => (t.alertsOf 3, t.watchOf 3)) =
      some ([⟨37, .above, some 3728⟩], [⟨37, none, some 3648, true, true⟩]) := by decide +kernel

/-- A QUOTE request is answered with the page of the record found, its header first (R146, R145). -/
theorem test_quoteRequest : shows (.quoteRequest "XZ".toList) requesting (fun t => t.desk.transaction.map fun u => (u.page, u.output)) =
    some (some (some (.quote 37 [1, 2, 3, 4, 5, 6]), .line ⟨0, false,
      [.text "QUOTE".toList, .text "XYZ".toList, .text "10:15:07".toList], .header⟩)) := by decide +kernel

/-- An alert line with no price: code, reason, and 0 where the price is absent (R158, R191, section 10.4). -/
theorem test_alertLine_absent : Line.text ⟨1, false, alertLine ab ⟨4, .halt, none⟩, .header⟩ =
    "AB HALT 0".toList ++ List.replicate 31 ' ' := by decide +kernel

/-- UNIT ATTENTION is lit while HELD and dark on a RUNNING unit with nothing wrong (R189). -/
theorem test_lamp : State.reset.unitAttention = true ∧ unit5.unitAttention = false := by decide +kernel

/-! ### The laws hold of `floor`, and a step runs from it -/

theorem floor_references : floor.referencesAgree := by
  have he : ∀ e ∈ floor.store.records, e = (4, ab) ∨ e = (37, xyz) := by
    intro e he
    simpa [floor] using he
  refine ⟨?_, ⟨by decide, by decide⟩, ⟨by decide, ?_⟩, ?_, ?_, by unfold Directory.primariesDistinct; decide, ⟨by decide, ?_⟩, ?_, ?_, trivial⟩
  · unfold Directory.ordered; decide
  · intro e hx; rcases he e hx with rfl | rfl <;> decide
  · intro e hx
    have : e = ⟨"AB".toList, 4, .primary⟩ ∨ e = ⟨"XYZ".toList, 37, .primary⟩ ∨ e = ⟨"XZ".toList, 37, .aliased⟩ := by
      simpa [floor] using hx
    rcases this with rfl | rfl | rfl
    · exact ⟨ab, rfl, fun _ => rfl⟩
    · exact ⟨xyz, rfl, fun _ => rfl⟩
    · exact ⟨xyz, rfl, fun hk => by cases hk⟩
  · intro e hx
    rcases he e hx with rfl | rfl
    · exact ⟨⟨"AB".toList, 4, .primary⟩, by decide, rfl, rfl⟩
    · exact ⟨⟨"XYZ".toList, 37, .primary⟩, by decide, rfl, rfl⟩
  · intro c hc
    have : c = (3, 4) ∨ c = (9, 4) ∨ c = (71, 37) := by simpa [floor] using hc
    rcases this with rfl | rfl | rfl
    · exact ⟨by decide, ab, rfl, by decide⟩
    · exact ⟨by decide, ab, rfl, by decide⟩
    · exact ⟨by decide, xyz, rfl, by decide⟩
  · intro e hx
    rcases he e hx with rfl | rfl <;> exact ⟨by decide, by decide, by decide⟩
  · show ∀ st ∈ floor.desk.stations, ∀ e ∈ st.watch, (floor.record? e.record).isSome = true
    decide

theorem floor_working (operation : DirOperation)
    (h : { floor with directory := { floor.directory with operation := operation } }.operationStands) :
    { floor with directory := { floor.directory with operation := operation } }.referencesAgree := by
  obtain ⟨a, b, c, d, e, f, g, i, j, _⟩ := floor_references
  exact ⟨a, b, c, d, e, f, g, i, j, h⟩

theorem floor_records : floor.recordsLawful := by
  refine ⟨?_, trivial⟩
  intro e hx
  have : e = (4, ab) ∨ e = (37, xyz) := by simpa [floor] using hx
  rcases this with rfl | rfl <;>
    exact ⟨⟨by decide, by decide⟩, ⟨by decide, by decide, by decide, by decide, by decide⟩, by decide, by decide, by decide, by decide,
      by decide⟩

theorem floor_tapes : floor.tapesLawful :=
  have h : Tape.cleared.lawful := ⟨⟨rfl, rfl⟩, ⟨by decide, by decide, by decide, by decide⟩, by decide, by decide, by decide, by decide⟩
  ⟨h, h⟩

theorem floor_board : floor.board.lawful := by
  refine ⟨by decide, by decide, rfl, ?_, ⟨by decide, by decide⟩, fun blk h => by cases h⟩
  intro p hp
  have : p = Panel.fresh := by simpa [floor, unit5, State.reset, State.powered, Board.cleared] using hp
  subst this
  exact Nat.zero_le 7

theorem floor_desk : floor.desk.stationsLawful ∧ floor.desk.lineLawful := by
  have hs : ∀ st ∈ floor.desk.stations, st = Station.fresh ∨ st = station3 := by decide
  refine ⟨⟨rfl, ?_⟩, ?_, rfl, trivial⟩
  · intro st h
    rcases hs st h with rfl | rfl <;>
      exact ⟨⟨by decide, by decide, by decide, by decide⟩, ⟨by decide, by decide, by decide, by decide⟩,
        by unfold Station.emptyWhenDetached; decide⟩
  · intro st h
    rcases hs st h with rfl | rfl
    · exact (rfl : Station.fresh.failedRun = 0)
    · exact (by decide : station3.failedRun ≤ 2)

theorem floor_feed : floor.feed.lawful ∧ floor.placesSound ∧ floor.intakeSound := by
  refine ⟨⟨trivial, ⟨by decide, by decide, by decide, by decide, by decide, by decide⟩, by decide, by decide, by decide, by decide,
    by decide, by decide⟩, ⟨rfl, by decide⟩, by decide, ?_, by decide, by decide⟩
  intro e h
  cases h

theorem floor_settings : floor.params.ordered ∧ floor.params.ranged ∧ floor.counters.counted := by
  unfold Params.ordered Params.ranged Counters.counted
  decide

/-- StepKeepsReferences, StepKeepsRecordsAndTapes, StepKeepsBoardAndSettings, StepKeepsDeskLawful, StepKeepsFeedLawful: a lawful
state from which a step runs, with a command waiting and with none. -/
theorem test_witness_laws : floor.referencesAgree ∧ floor.recordsLawful ∧ floor.tapesLawful ∧ floor.board.lawful ∧
    floor.params.ordered ∧ floor.params.ranged ∧ floor.counters.counted ∧ floor.desk.stationsLawful ∧ floor.desk.lineLawful ∧
    floor.desk.pagesBounded ∧ floor.desk.countersCounted ∧
    floor.feed.lawful ∧ floor.placesSound ∧ floor.intakeSound ∧ (∃ t, step floor = .next t) ∧
    ∃ t, step { floor with pending := [.loadSymbol 5 loadXY] } = .next t :=
  ⟨floor_references, floor_records, floor_tapes, floor_board, floor_settings.1, floor_settings.2.1, floor_settings.2.2,
    floor_desk.1, floor_desk.2, ⟨fun _ _ h => (by cases h), fun _ _ h => (by cases h), fun _ h => (by cases h)⟩,
    by unfold Desk.countersCounted; decide, floor_feed.1, floor_feed.2.1, floor_feed.2.2, ⟨_, rfl⟩, _, rfl⟩

/-! ### A state and operands that meet the hypotheses of each statement, clause by clause -/

/-- StepRunsFrontCommand: an empty queue, with FEED OUT timed by the crystal and by arrivals, the last at this reading and before. -/
theorem test_witness_StepRunsFrontCommand : floor.pending = [] ∧ { floor.feed with timing := .crystal }.timing = .crystal ∧
    { floor.feed with timing := .arrivals, lastArrival := floor.clock }.timing = .arrivals ∧
    { floor.feed with lastArrival := floor.clock + 1 }.lastArrival ≠ floor.clock := by decide

/-- `floor` with the unit address, the places and the messages of a clause. -/
def floorAt (address reserved : Nat) : State :=
  { floor with manager := { floor.manager with address := address }, feed := { floor.feed with reserved := reserved } }

/-- Every statement about a command taken: the addresses 1 and 62 at the ends of their range, and three places of four occupied. -/
theorem test_witness_takes : floor.takes 5 ∧ (floorAt 1 3).takes 1 ∧ (floorAt 62 0).takes 62 :=
  ⟨⟨rfl, by decide, by decide, by decide⟩, ⟨rfl, by decide, by decide, by decide⟩, rfl, by decide, by decide, by decide⟩

/-- A forward queue that holds 511 characters with a flag held. -/
def full : State :=
  { unit5 with feed := { unit5.feed with heldFlag := true, forward := [List.replicate 511 .flag] } }

/-- OnlyFullForwardQueueStops: a stop at 511 of 512 places for the two characters that join, none at 510, and the bound of 320. -/
theorem test_witness_OnlyFullForwardQueueStops :
    (∃ f, exec (.feedCharacterReceived (.data 17)) full = .fault f) ∧ 505 < full.feed.forwardCount ∧
      (shows (.feedCharacterReceived (.data 17)) { full with feed := { full.feed with forward := [List.replicate 510 .flag] } }
        (fun t => t.feed.forwardCount)) = some 512 ∧
      { full.feed with forward := [List.replicate 320 .flag] }.forwardCount = 320 :=
  ⟨⟨.forwardQueueFull, by
      simp only [exec, execFeedCharacterReceived]
      rw [if_pos (by decide +kernel), if_neg (by decide +kernel)]⟩, by decide +kernel, by decide +kernel, by decide +kernel⟩

/-- PowerOnResetsEveryBlock: the strap values where its clauses meet. -/
theorem test_witness_PowerOnResetsEveryBlock :
    (1#6).toNat = 1 ∧ (62#6).toNat = 62 ∧ (0#6).toNat = 0 ∧ (63#6).toNat = 63 := by decide

/-- RestartKeepKeepsTables, RestartClearEmptiesTables: a signal held and none, a record occupied and one not, a station, and a reply
being sent and none. -/
theorem test_witness_restarts : floor.takes 5 ∧ floor.desk.attn = false ∧ floor.desk.busy = false ∧
    requesting.desk.busy = true ∧ floor.record? 511 = none ∧ floor.record? 37 = some xyz ∧
    floor.desk.stations[3]? = some station3 ∧ floor.feed.out = .idleFlag [.flag] ∧
    { floor.feed with out := .reply ⟨5, 1, .done, .empty⟩ [.flag] true }.out = .reply ⟨5, 1, .done, .empty⟩ [.flag] true :=
  ⟨test_witness_takes.1, by decide⟩

/-- ManagerCommandsAct: a HELD and a RUNNING unit; numbers 0 and 24, and a length that does not agree. -/
theorem test_witness_ManagerCommandsAct : floor.takes 5 ∧ floor.manager.state = .running ∧
    { floor with manager := { floor.manager with state := .held } }.takes 5 ∧ parseCommand 1 [0] = none ∧ 23 < 24 :=
  ⟨test_witness_takes.1, rfl, ⟨rfl, by decide, by decide, by decide⟩, by decide, by decide⟩

/-- CommandsAreTakenByAddress: another unit's address, 0, and every place occupied at addresses 1 and 62. -/
theorem test_witness_CommandsAreTakenByAddress : (6 ≠ 63 ∧ 6 ≠ floor.manager.address) ∧ (0 ≠ 63 ∧ ∀ n, Command.ackRestart ≠ .assign n) ∧
    (64 ≠ 63 ∧ 62 < 64) ∧ (1 = (floorAt 1 4).manager.address ∧ 4 ≤ (floorAt 1 4).feed.occupied) ∧
    62 = (floorAt 62 4).manager.address ∧ 4 ≤ (floorAt 62 4).feed.occupied :=
  ⟨by decide, ⟨by decide, fun _ h => by cases h⟩, by decide, by decide, by decide⟩

/-- DirectoryCommandIsAccepted: each of the four commands with its checks passed. -/
theorem test_witness_DirectoryCommandIsAccepted :
    floor.accepts (.loadSymbol loadXY) (.load { loadXY with settings := ⟨16, 15, 1, 3⟩ }) ∧
      floor.accepts (.addAlias "AX".toList 4) (.addAlias "AX".toList 4) ∧ floor.accepts (.dropAlias "XZ".toList) (.dropAlias "XZ".toList) ∧
      floor.accepts (.dropSymbol "XYZ".toList) (.dropSymbol "XYZ".toList 37) ∧ floor.directory.operation = .idle ∧
      floor.store.walk = none ∧ floor.takes 5 :=
  ⟨⟨by decide, by decide, by decide, by decide, by decide⟩, ⟨by decide, by decide, by decide, by decide, by decide, rfl, rfl⟩,
    ⟨by decide, ⟨_, rfl, rfl⟩, rfl⟩, ⟨by decide, ⟨_, rfl, rfl, rfl⟩, rfl⟩, rfl, rfl, test_witness_takes.1⟩

/-- `floor` with a directory of one kind of entry, as many as a limit. -/
def crowded (kind : EntryKind) (count : Nat) : State :=
  { floor with directory := { floor.directory with entries := List.replicate count ⟨"AB".toList, 4, kind⟩ } }

/-- DirectoryCommandsAreRefused: an operation held, a walk in flight, and each refusal at the edge of its check. -/
theorem test_witness_DirectoryCommandsAreRefused : isDirectoryCommand (.dropAlias []) = true ∧
    { floor with store := { floor.store with walk := some 512 } }.store.walk ≠ none ∧
    DirOperation.draining (.dropAlias "XZ".toList) true ≠ .idle ∧ floor.takes 5 ∧ wellFormedCode "ABCDEF".toList = false ∧
    wellFormedCode [] = false ∧ (wellFormedCode "ABCDE".toList = true ∧ floor.record? 511 = none) ∧
    (wellFormedCode "Q".toList = true ∧ (crowded .aliased 64).record? 4 ≠ none ∧
      countEntries (crowded .aliased 64).directory.entries .aliased = 64) ∧
    (countEntries floor.directory.entries .aliased < 64 ∧ lookupCode floor.directory.entries "XZ".toList ≠ none) ∧
    (findEntry floor.directory.entries "XYZ".toList).map Entry.kind = some .primary ∧
    (findEntry floor.directory.entries "XZ".toList).map Entry.kind = some .aliased :=
  ⟨rfl, by decide, by decide, test_witness_takes.1, by decide, by decide, by decide, by decide +kernel, by decide, by decide, by decide⟩

/-- LoadSymbolIsExaminedInOrder: bad arguments, 512 primaries, an occupied record, and none of them; T 0 and T 65,535. -/
theorem test_witness_LoadSymbolIsExaminedInOrder : floor.takes 5 ∧ loadXY.cells.length ≤ 2 ∧
    512 ≤ { loadXY with record := 512 }.record ∧ loadArgsSound loadXY = true ∧
    512 ≤ countEntries (crowded .primary 512).directory.entries .primary ∧
    floor.record? { loadXY with record := 37 }.record ≠ none ∧ floor.record? loadXY.record = none ∧
    lookupCode floor.directory.entries loadXY.code = none ∧ { loadXY with settings := ⟨0, 5, 0, 9⟩ }.settings.t ≤ 65535 ∧
    { loadXY with settings := ⟨65535, 65535, 15, 7⟩ }.settings.t ≤ 65535 :=
  ⟨test_witness_takes.1, by decide, by decide, by decide, by decide +kernel, by decide, by decide, by decide, by decide, by decide⟩

/-- A completion's state: `floor` with an operation WORKING. -/
def working (work : DirWork) (held : Bool) : State :=
  { floor with directory := { floor.directory with operation := .working work held } }

/-- `floor` with a place reserved for the operation and a request of station 3 held. -/
def waiting (work : DirWork) : State :=
  onLine (working work true) .request { withStation3 with window := none, held := some (.quote "XZ".toList) } false true

/-- LoadSymbolCompletes: its load WORKING beside the references law, with no request held and with one. -/
theorem test_witness_LoadSymbolCompletes : (working (.load loadXY) true).referencesAgree ∧ (working (.load loadXY) true).noRequestHeld ∧
    (working (.load loadXY) true).directory.operation = .working (.load loadXY) true ∧ (waiting (.load loadXY)).referencesAgree ∧
    (waiting (.load loadXY)).desk.transaction.bind Transaction.held = some (.quote "XZ".toList) :=
  have h := floor_working (.working (.load loadXY) true) ⟨by decide, by decide, by decide, by decide⟩
  ⟨h, fun t h => (by cases h), rfl, h, rfl⟩

/-- AliasOperationsComplete, DropSymbolCompletes: each WORKING, with no request held and with one, and a walk in flight. -/
theorem test_witness_other_completions : (working (.addAlias "AX".toList 4) true).noRequestHeld ∧
    (working (.dropAlias "XZ".toList) false).noRequestHeld ∧ (working (.dropSymbol "XYZ".toList 37) true).noRequestHeld ∧
    (working (.dropSymbol "XYZ".toList 37) true).record? 37 = some xyz ∧ (waiting (.dropAlias "XZ".toList)).store.walk = none ∧
    (waiting (.dropAlias "XZ".toList)).desk.transaction.bind Transaction.held = some (.quote "XZ".toList) ∧
    (waiting (.dropSymbol "XYZ".toList 37)).desk.transaction.bind Transaction.held = some (.quote "XZ".toList) ∧
    { (waiting (.dropAlias "XZ".toList)).store with walk := some 38 }.walk ≠ none :=
  ⟨fun t h => (by cases h), fun t h => (by cases h), fun t h => (by cases h), by decide, by decide, by decide, by decide, by decide⟩

/-- SetCellAssignsCell: panel 4, cell 64 and record 512; an unoccupied record; a full list without and with the cell; a list with
room; unassigning. -/
theorem test_witness_SetCellAssignsCell : floor.takes 5 ∧ floor.referencesAgree ∧ (3 < 4 ∧ 63 < 64 ∧ 512 ≤ 512) ∧
    floor.record? 511 = none ∧ (floor.record? 4 = some ab ∧ ab.cells.length = 2 ∧ 3 * 64 + 63 ∉ ab.cells) ∧ 0 * 64 + 9 ∈ ab.cells ∧
    (floor.record? 37 = some xyz ∧ xyz.cells.length < 2) ∧ ∀ r, (none : Option Nat) = some r → False :=
  ⟨test_witness_takes.1, floor_references, by decide, by decide, by decide, by decide, by decide, fun _ h => by cases h⟩

/-- SetMonitorStoresSettings: record 512, an unoccupied record, an occupied one CALM and one ACTIVE. -/
theorem test_witness_SetMonitorStoresSettings : floor.takes 5 ∧ 512 ≤ 512 ∧ floor.record? 511 = none ∧ floor.record? 37 = some xyz ∧
    xyz.monitor.state = .calm ∧ ((floor.setRecord 37 { xyz with monitor :=
      ⟨⟨32, 8, 2, 3⟩, .active, 0, some 1, some .up, some 5⟩ }).record? 37).isSome = true :=
  ⟨test_witness_takes.1, by decide⟩

/-- WatchListIsReplaced: station 16, thirteen entries, record 512, a record twice, levels 0 and 1,048,576, an unoccupied record,
and a good list. -/
theorem test_witness_WatchListIsReplaced : floor.takes 5 ∧ (15 < 16 ∧ 12 < (List.replicate 13 (⟨4, none, none, false⟩ : WatchArgs)).length) ∧
    ¬ ([⟨4, none, none, false⟩, ⟨4, none, none, true⟩].map WatchArgs.record).Nodup ∧ 512 ≤ (⟨512, none, none, false⟩ : WatchArgs).record ∧
    ((⟨4, some 0, none, false⟩ : WatchArgs).above = some 0 ∧ (⟨4, none, some 1048576, false⟩ : WatchArgs).below = some 1048576) ∧
    (watchArgsSound 15 [⟨511, none, none, false⟩] = true ∧ floor.record? 511 = none) ∧
    (watchArgsSound 3 [⟨37, some 1, some 1048575, true⟩, ⟨4, none, none, false⟩] = true ∧ floor.record? 37 ≠ none ∧ floor.record? 4 ≠ none) ∧
    floor.desk.stations[3]? = some station3 ∧ floor.desk.stations[15]? = some Station.fresh :=
  ⟨test_witness_takes.1, by decide⟩

/-- SetStationChangesMode: station 16, mode 3, and a station of each mode, DETACHED and ATTACHED. -/
theorem test_witness_SetStationChangesMode : floor.takes 5 ∧ (15 < 16 ∧ 2 < 3) ∧
    (floor.desk.stations[3]? = some station3 ∧ station3.mode ≠ .stream ∧ station3.presence ≠ .detached) ∧
    (floor.desk.stations[15]? = some Station.fresh ∧ Station.fresh.presence = .detached) ∧
    (({ floor.desk with stations := floor.desk.stations.set 3 { station3 with mode := .stream, streamAt := some 9 } }.stations)[3]?).map
      Station.mode = some .stream :=
  ⟨test_witness_takes.1, by decide⟩

/-- LevelThresholdsStayInOrder, SetParameterClampsAndStores: the thresholds in order, levels 1 and 3, identifiers 0 and 21. -/
theorem test_witness_parameters : floor.takes 5 ∧ floor.params.ordered ∧ (1 ≤ 1 ∧ 3 ≤ 3) ∧ 20 < 21 :=
  ⟨test_witness_takes.1, floor_settings.1, by decide, by decide⟩

/-- `floor` with a block of panel 1 in flight, on a board in a pause state. -/
def flying (pause : PauseState) : State :=
  { floor with board := { floor.board with
      pause := pause
      block := some { panel := 1, cells := [71], updates := [floor.cellUpdate 71], check := 7, deadline := 0 } } }

/-- PauseBoardWaitsForBlock, BoardContinuesAndSweeps: each pause state; panels 3 and 4; a sweep due and not due; no block. -/
theorem test_witness_board_commands : floor.takes 5 ∧ floor.board.lawful ∧ (flying .pausing).takes 5 ∧
    { floor.board with pause := .paused }.lawful ∧ (3 < 4) ∧ floor.referencesAgree ∧ floor.board.panels.length = 4 ∧
    reached 60000 floor.board.sweepAt = true ∧ reached 59999 floor.board.sweepAt = false ∧ floor.board.block = none := by
  obtain ⟨a, b, c, d, _, _⟩ := floor_board
  exact ⟨test_witness_takes.1, floor_board, ⟨rfl, by decide, by decide, by decide⟩, ⟨a, b, c, d, ⟨by decide, by decide⟩, fun _ h => by cases h⟩,
    by decide, floor_references, rfl, by decide, by decide, rfl⟩

/-- QueriesOnlyAnswer: the parts past the last, record 512, an unoccupied record, stations 15 and 16. -/
theorem test_witness_QueriesOnlyAnswer : floor.takes 5 ∧ (4 < 5 ∧ 3 < 4 ∧ 1 < 2 ∧ 0 < 1) ∧ 512 ≤ 512 ∧ floor.record? 511 = none ∧
    floor.record? 37 = some xyz ∧ floor.desk.stations[16]? = none ∧ floor.desk.stations[15]? = some Station.fresh :=
  ⟨test_witness_takes.1, by decide⟩

/-- AssignIsTakenAndReplaced: candidates 1 and 62 on an unassigned unit, candidates 0 and 63, an assigned unit. -/
theorem test_witness_AssignIsTakenAndReplaced : State.reset.manager.source = .unassigned ∧
    { State.reset.feed with forward := [queued (commandMessage 0 (.assign 62))] }.forwardCount ≤ 512 ∧
    (State.reset.feed.forwardCount ≤ 320 ∧
      State.reset.feed.forward.getLast? ≠ some (queued (commandMessage 0 (.assign 62)))) ∧
    ((1 ≤ 62 ∧ 62 ≤ 62) ∧ 62 < 63) ∧ floor.manager.source ≠ .unassigned ∧ floor.takes 5 :=
  ⟨by decide, by decide +kernel, by decide +kernel, by decide, by decide, test_witness_takes.1⟩

/-- A message up to its last character, still arriving. -/
def arrivingAs (s : State) (front : List Byte) : State := { s with feed := { s.feed with arriving := queued front } }

/-- `floor` with a command of unit 5 all but complete, FEED OUT done with a reply's last character, and places reserved. -/
def sentOut (reserved : Nat) : State :=
  { arrivingAs floor [64, 5, 5, 1] with feed := { (arrivingAs floor [64, 5, 5, 1]).feed with
      reserved := reserved
      out := .reply { address := 5, echo := 1, status := .done, body := .empty } [] true } }

/-- CommandMessageActsAsItsRow: a command of this unit and one of another, every hypothesis met at addresses 5 and 255; with three
places reserved and a reply all out in the fourth, the arrival frees that place (R169), and with four reserved none is free. -/
theorem test_witness_CommandMessageActsAsItsRow : (Command.loadSymbol loadXY).wellFormed = true ∧
    commandMessage 5 .ackRestart = [64, 5, 5, 1] ++ [181] ∧ commandMessage 255 .ackRestart = [64, 5, 255, 1] ++ [187] ∧
    (arrivingAs floor [64, 5, 5, 1]).feed.lock = .locked ∧ (arrivingAs floor [64, 5, 5, 1]).feed.arriving = queued [64, 5, 5, 1] ∧
    (arrivingAs floor [64, 5, 5, 1]).feed.forwardCount < 512 ∧ (sentOut 3).feed.lock = .locked ∧ (sentOut 3).ownAddress 5 = true ∧
    (sentOut 3).feed.arriving = queued [64, 5, 5, 1] ∧ (sentOut 3).feed.placeFree = false ∧ (sentOut 3).arrived.feed.placeFree = true ∧
    (sentOut 4).arrived.feed.placeFree = false := by decide +kernel

/-- R167, R169: the place of a reply all out is free for the command that completes with the next character: it is taken, not
forwarded. -/
theorem test_place_of_sent_reply : shows (.feedMessageReceived 181) (sentOut 3)
    (fun t => (t.feed.filled.length, t.counters.untaken, t.feed.forwardCount)) = some (1, 0, 0) := by decide +kernel

/-- MarketMessageIsSequenceChecked: DAY START on 0, and the expectation absent and 1, 2,047, 2,048 and 0 behind it; a DAY START of
six characters, and one with sequence number 4,096. -/
theorem test_witness_MarketMessageIsSequenceChecked : MarketMsg.dayStart.wellFormed = true ∧
    marketMessage 0 .dayStart = [24, 5, 0, 0] ++ [227] ∧ (arrivingAs floor [24, 5, 0, 0]).intake.expectation = none ∧
    (0 + 4096 - 4095) % 4096 = 1 ∧ (0 + 4096 - 2049) % 4096 = 2047 ∧ (0 + 4096 - 2048) % 4096 = 2048 ∧ (0 + 4096 - 0) % 4096 = 0 ∧
    (arrivingAs floor [24, 5, 0, 0]).feed.lock = .locked ∧ (arrivingAs floor [24, 5, 0, 0]).feed.forwardCount < 512 ∧
    (arrivingAs floor [24, 6, 0, 0, 9]).completedBy [24, 6, 0, 0, 9] ∧ characterSum [24, 6, 0, 0, 9, 217] = 0 ∧
    marketOf [24, 6, 0, 0, 9, 217] = none ∧ (arrivingAs floor [24, 5, 16, 0]).completedBy [24, 5, 16, 0] ∧
    characterSum [24, 5, 16, 0, 211] = 0 ∧ fieldOf [24, 5, 16, 0, 211] 2 2 = 4096 :=
  ⟨by decide, by decide +kernel, by decide, by decide, by decide, by decide, by decide, by decide, by decide +kernel,
    ⟨rfl, by decide, _, _, _, rfl, by decide⟩, by decide, by decide +kernel, ⟨rfl, by decide, _, _, _, rfl, by decide⟩, by decide,
    by decide +kernel⟩

/-- `floor` SEARCHING with one good message behind it. -/
def relocking : State := { floor with feed := { floor.feed with lock := .searching, goodRun := 1 } }

/-- WholeMessagesMoveLockAndCounts: kinds 16, 27, 65 and 66, a right and a wrong check, LOCKED and SEARCHING; a market message and a
command that bring lock, with the feed NORMAL and LOST. -/
theorem test_witness_WholeMessagesMoveLockAndCounts : (arrivingAs floor [65, 4, 5]).completedBy [65, 4, 5] ∧
    (arrivingAs State.reset [65, 4, 5]).completedBy [65, 4, 5] ∧ characterSum [65, 4, 5, 182] = 0 ∧ characterSum [65, 4, 5, 0] ≠ 0 ∧
    (arrivingAs floor [66, 4, 5]).completedBy [66, 4, 5] ∧ characterSum [66, 4, 5, 181] = 0 ∧
    (arrivingAs floor [16, 4, 5]).completedBy [16, 4, 5] ∧ characterSum [16, 4, 5, 231] = 0 ∧
    (arrivingAs floor [27, 4, 5]).completedBy [27, 4, 5] ∧ characterSum [27, 4, 5, 220] = 0 ∧ State.reset.feed.goodRun = 0 ∧
    (arrivingAs relocking [24, 5, 0, 7]).completedBy [24, 5, 0, 7] ∧ characterSum [24, 5, 0, 7, 220] = 0 ∧
    (arrivingAs relocking [64, 5, 5, 1]).completedBy [64, 5, 5, 1] ∧ characterSum [64, 5, 5, 1, 181] = 0 ∧
    relocking.feed.lock = .searching ∧ relocking.feed.goodRun = 1 ∧ { relocking.feed with feed := .lost }.feed = .lost :=
  ⟨⟨rfl, by decide, _, _, _, rfl, by decide⟩, ⟨rfl, by decide, _, _, _, rfl, by decide⟩, by decide, by decide,
    ⟨rfl, by decide, _, _, _, rfl, by decide⟩, by decide, ⟨rfl, by decide, _, _, _, rfl, by decide⟩, by decide,
    ⟨rfl, by decide, _, _, _, rfl, by decide⟩, by decide, rfl, ⟨rfl, by decide, _, _, _, rfl, by decide⟩, by decide,
    ⟨rfl, by decide, _, _, _, rfl, by decide⟩, by decide, rfl, rfl, by decide⟩

/-- CharactersFrameMessages: a flag held for 249 and 250 ms, lengths 3, 4, 64 and 65, a message in progress and none. -/
theorem test_witness_CharactersFrameMessages : floor.feed.arriving = [] ∧ full.feed.heldFlag = true ∧
    ((249#32 : Reading) - full.feed.lastArrival).toNat < 250 ∧ ¬ ((250#32 : Reading) - full.feed.lastArrival).toNat < 250 ∧
    (arrivingAs floor [65]).feed.arriving = [.flag, .data 65] ∧ (4 ≤ (4#8).toNat ∧ (64#8).toNat ≤ 64) ∧
    ((3#8).toNat < 4 ∧ 64 < (65#8).toNat) ∧ (arrivingAs floor [65, 5]).feed.arriving = queued [65, 5] ∧
    ([] : List Byte).length + 3 ≠ (5#8).toNat ∧ (arrivingAs floor [65]).feed.arriving ≠ [] ∧
    floor.classOf .unreadable ≠ .joins ∧ floor.classOf .flag ≠ .framingFault := by decide +kernel

/-- SilenceLosesLockAndFeed: 249 and 250 ms of silence, a deadline due and none, LOCKED and SEARCHING. -/
theorem test_witness_SilenceLosesLockAndFeed : floor.feed.lock = .locked ∧ 250 ≤ ((250#32 : Reading) - floor.feed.lastArrival).toNat ∧
    ((249#32 : Reading) - floor.feed.lastArrival).toNat < 250 ∧ State.reset.feed.lossAt = some 2000 ∧ reached 2000 2000 = true ∧
    State.reset.feed.lock = .searching ∧ floor.feed.lossAt = none := by decide

/-- A filled reply of unit 5. -/
def filledReply : FilledReply := { reply := { address := 5, echo := 1, status := .done, body := .empty }, expiresAt := 500 }

/-- `floor` with FEED OUT sending the filled reply, one message waiting behind it. -/
def replying (unsent : List FeedChar) : State :=
  { floor with feed := { floor.feed with out := .reply filledReply.reply unsent true, forward := [queued [24, 5, 0, 0, 227]] } }

/-- A reply is 7 characters with its flag; an arrival sends one of them, and what arrives joins behind the message (R165, R166). -/
theorem test_reply_sent_by_arrivals : filledReply.reply.characters.length = 7 ∧
    shows (.feedCharacterReceived .flag) (replying [.data 5, .data 6]) (fun t => (t.feed.out, t.feed.forwardCount)) =
      some (.reply filledReply.reply [.data 6] true, 6) := by decide +kernel

/-- FEED_OUT_FREE does not cut a reply off, and after its last character begins the message; so does the next arrival (R166). -/
theorem test_reply_completed : shows .feedOutFree (replying [.data 6]) (fun t => t.feed.out) =
      some (.reply filledReply.reply [.data 6] true) ∧
    shows .feedOutFree (replying []) (fun t => (t.feed.out, t.feed.filledPlaces)) = some (.message, 0) ∧
    shows (.feedCharacterReceived .flag) (replying []) (fun t => (t.feed.out, t.feed.forwardCount)) = some (.message, 5) := by
  decide +kernel

/-- A millisecond of the crystal sends 5 characters and 13 fifty-fifths: 2 of the reply and 3 of the message behind it (R166). -/
theorem test_crystal_millisecond : (match step { replying [.data 6, .data 7] with
      feed := { (replying [.data 6, .data 7]).feed with timing := .crystal } } with
    | .next t => some (t.feed.out, t.feed.forward, t.feed.crystalShare)
    | _ => none) = some (.message, [[.data 0, .data 0, .data 227]], 13) := by decide +kernel

/-- FeedOutSendsByPriority: 256 and 257 characters left with a reply filled; an idle flag, a message and a reply out and not yet
out; a hold at its end and before it. -/
theorem test_witness_FeedOutSendsByPriority : floor.feed.out = .idleFlag [.flag] ∧ floor.feed.filled = [] ∧
    (replying []).feed.out = .reply filledReply.reply [] true ∧ (replying [.flag]).feed.out = .reply filledReply.reply [.flag] true ∧
    ([List.replicate 256 FeedChar.flag].map List.length).sum ≤ 256 ∧ 256 < ([List.replicate 257 FeedChar.flag].map List.length).sum ∧
    ({ floor.feed with out := .message, forward := [[.flag]] }.forward.headD [] ≠ []) ∧
    ({ floor.feed with out := .message, forward := [[], [.flag]] }.forward.headD [] = []) ∧
    ({ floor.feed with out := .message, forward := [[], [.flag]] }.forward.drop 1 = [.flag] :: []) ∧
    [filledReply][0]? = some filledReply ∧ reached 500 filledReply.expiresAt = true ∧ reached 499 filledReply.expiresAt = false := by
  decide +kernel

/-- `floor` with DROP ALIAS of XZ DRAINING and one marked message. -/
def drainingMarked : State :=
  { floor with
    directory := { floor.directory with operation := .draining (.dropAlias "XZ".toList) true }
    intake := { floor.intake with queue := [⟨2210, .resume "XYZ".toList, true⟩] } }

/-- ClassifierExaminesHead: each state in which the head is left, HELD, unsound fields, DAY START in an open session, a marked
head behind a DRAINING operation while HELD and while RUNNING, with a marked one behind it and none; a code not found with volumes
99 and 100, prices 1 and 1,048,575, cancelled sequence 4,095, and a QUOTE, a HALT and FIGURES for it. -/
theorem test_witness_ClassifierExaminesHead : (withHead floor 1 .dayStart).intake.queue = ⟨1, .dayStart, false⟩ :: [] ∧
    (working (.dropAlias "XZ".toList) true).directory.operation = .working (.dropAlias "XZ".toList) true ∧
    fieldsSound (.session 2) = false ∧ floor.store.session ≠ .closed ∧ floor.manager.state = .running ∧
    (withHead floor 1 (.resume "Q".toList)).classifies ⟨1, .resume "Q".toList, false⟩ [] ∧
    lookupCode floor.directory.entries "Q".toList = none ∧ wellFormedCode "Q".toList = true ∧
    (isPrice 1 = true ∧ isPrice 1048575 = true ∧ isVolume 99 = true ∧ isVolume 100 = true ∧ isVolume 16777215 = true) ∧
    conditionOf 2 = some .sld ∧ 4095 ≤ 4095 ∧ drainingMarked.directory.operation = .draining (.dropAlias "XZ".toList) true ∧
    drainingMarked.intake.queue = ⟨2210, .resume "XYZ".toList, true⟩ :: [] ∧ drainingMarked.store.walk = none ∧
    { drainingMarked.manager with state := .held }.state = .held ∧ (∃ x ∈ [(⟨1, .dayStart, true⟩ : IntakeMessage)], x.marked = true) ∧
    (fieldsSound (.quote "Q".toList none none) = true ∧ fieldsSound (.halt "Q".toList 0) = true ∧
      fieldsSound (.figures "Q".toList 1 none none none none) = true) :=
  ⟨rfl, rfl, by decide, by decide, rfl, ⟨rfl, rfl, rfl, rfl⟩, by decide, by decide, by decide, rfl, by decide, rfl, rfl, rfl, rfl,
    by decide, by decide⟩

/-- RegularPrintMovesRecord: the print of section 2.10.1, last present; an OPENED print of AB, last absent. -/
theorem test_witness_RegularPrintMovesRecord : printWaits.classifies ⟨2210, .print "XYZ".toList 3672 2300 0, false⟩ [] ∧
    printWaits.finds "XYZ".toList 37 xyz ∧ wellFormedCode "XYZ".toList = true ∧ isPrice 3672 = true ∧ isVolume 2300 = true ∧
    xyz.halted = none ∧ (withHead floor 1 (.print "AB".toList 1048575 1 1)).classifies ⟨1, .print "AB".toList 1048575 1 1, false⟩ [] ∧
    (withHead floor 1 (.print "AB".toList 1048575 1 1)).finds "AB".toList 4 ab ∧ ab.last = none ∧ ab.prevClose = some 1200 :=
  ⟨⟨rfl, rfl, rfl, rfl⟩, ⟨by decide, by decide⟩, by decide, by decide, by decide, rfl, ⟨rfl, rfl, rfl, rfl⟩, ⟨by decide, by decide⟩, rfl, rfl⟩

/-- CancelCorrectsRecordAndTapes: a sequence not in the ring; the SLD print; an older print; the newest regular print with an older
one left, and alone. -/
theorem test_witness_CancelCorrectsRecordAndTapes :
    (withHead floor 1 (.cancel "XYZ".toList 4095 1 1)).classifies ⟨1, .cancel "XYZ".toList 4095 1 1, false⟩ [] ∧
      (withHead floor 1 (.cancel "XYZ".toList 4095 1 1)).finds "XYZ".toList 37 xyz ∧ ringSound xyz.ring ∧
      (∀ x ∈ xyz.ring, x.sequence ≠ 4095) ∧
      xyz.ring = [⟨2060, 3656, 400, .regular⟩, ⟨2101, 3664, 500, .regular⟩] ++ ⟨2150, 3640, 200, .sld⟩ :: [⟨2188, 3680, 1000, .regular⟩] ∧
      xyz.ring = [] ++ ⟨2060, 3656, 400, .regular⟩ :: xyz.ring.drop 1 ∧ (∃ y ∈ xyz.ring.drop 1, y.condition ≠ .sld) ∧
      xyz.ring = xyz.ring.take 3 ++ ⟨2188, 3680, 1000, .regular⟩ :: [] ∧
      xyz.ring.take 3 = [⟨2060, 3656, 400, .regular⟩] ++ ⟨2101, 3664, 500, .regular⟩ :: [⟨2150, 3640, 200, .sld⟩] ∧
      ringSound [⟨1, 5, 5, .regular⟩, ⟨2, 5, 5, .sld⟩] ∧ xyz.last = some (3680, ⟨10, 14, 52⟩) :=
  ⟨⟨rfl, rfl, rfl, rfl⟩, ⟨by decide, by decide⟩, ⟨by decide, by decide⟩, by decide, rfl, rfl, by decide, rfl, rfl, ⟨by decide, by decide⟩, rfl⟩

/-- RecordMessagesApply: an SLD print, a print on a HALTED record, and each other message on a NORMAL and a HALTED record. -/
theorem test_witness_RecordMessagesApply :
    (withHead floor 1 (.print "XYZ".toList 3 99 2)).classifies ⟨1, .print "XYZ".toList 3 99 2, false⟩ [] ∧
      (withHead floor 1 (.print "XYZ".toList 3 99 2)).finds "XYZ".toList 37 xyz ∧
      (withHead (floor.setRecord 37 { xyz with halted := some .news }) 1 (.resume "XYZ".toList)).finds "XYZ".toList 37
        { xyz with halted := some .news } ∧
      fieldsSound (.quote "XYZ".toList none (some (1, 0))) = true ∧ fieldsSound (.halt "XYZ".toList 2) = true ∧
      reasonOf 2 = some .other ∧ fieldsSound (.resume "XYZ".toList) = true ∧
      fieldsSound (.figures "XYZ".toList 1 none (some 1048575) none (some 4294967295)) = true :=
  ⟨⟨rfl, rfl, rfl, rfl⟩, ⟨by decide, by decide⟩, ⟨by decide, by decide⟩, by decide, by decide, rfl, by decide, by decide⟩

/-- MarketWideMessagesApply: session 2, 23:59:59, a NOTICE, and DAY START in the CLOSED session. -/
theorem test_witness_MarketWideMessagesApply : (withHead floor 1 (.session 2)).classifies ⟨1, .session 2, false⟩ [] ∧
    (withHead floor 1 (.time 23 59 59)).classifies ⟨1, .time 23 59 59, false⟩ [] ∧
    (withHead unit5 1 .dayStart).classifies ⟨1, .dayStart, false⟩ [] ∧ unit5.store.session = .closed ∧
    (withHead floor 1 (.notice ['A'])).classifies ⟨1, .notice ['A'], false⟩ [] :=
  ⟨⟨rfl, rfl, rfl, rfl⟩, ⟨rfl, rfl, rfl, rfl⟩, ⟨rfl, rfl, rfl, rfl⟩, rfl, rfl, rfl, rfl, rfl⟩

/-- A monitor in a state, with a baseline of 100 PU. -/
def monitorIn (state : MonitorState) (count n : Nat) : Monitor := ⟨⟨32, 8, n, 3⟩, state, count, some 25600, none, none⟩

/-- MonitorFollowsTable: deviations of 31 and 32 at T 32, of 23 and 24 at T − H, in each state, T 0, and no baseline. -/
theorem test_witness_MonitorFollowsTable : (monitorIn .calm 0 1).baseline = some 25600 ∧ 1 ≤ (monitorIn .calm 0 1).settings.n ∧
    deviation 131 25600 = 31 ∧ deviation 132 25600 = 32 ∧ deviation 123 25600 = 23 ∧ deviation 124 25600 = 24 ∧
    (monitorIn .arming 1 2).state = .arming ∧ (monitorIn .arming 1 2).count + 1 = (monitorIn .arming 1 2).settings.n ∧
    (monitorIn .releasing 1 3).count + 1 ≠ (monitorIn .releasing 1 3).settings.n ∧ (monitorIn .active 0 2).state = .active ∧
    { monitorIn .calm 0 1 with settings := ⟨0, 0, 1, 0⟩ }.settings.t = 0 ∧
    { monitorIn .calm 0 1 with baseline := none }.baseline = none := by decide +kernel

/-- A line on the page of a delivery or a reply. -/
def sending (kind : TransactionKind) (page : Page) (source : LineSource) : Transaction :=
  { station := 3, kind := kind, page := some page, nextLine := 2, window := none, held := none
    output := .line { number := 1, stale := false, fields := [], source := source } }

/-- ChangeOfLastMarksAndAlerts: the above level reached exactly and from it, the below level, the move flag, a DETACHED station, an
entry's line on the line, and another line; a record with no entry, and no transaction. -/
theorem test_witness_ChangeOfLastMarksAndAlerts : floor.desk.stations[3]? = some station3 ∧
    station3.watch = [] ++ ⟨37, some 3712, some 3648, true, false⟩ :: [] ∧ (3711 < 3712 ∧ 3712 ≤ 3712) ∧ ¬ 3712 < 3712 ∧
    (3648 < 3649 ∧ 3648 ≤ 3648) ∧ station3.presence ≠ .detached ∧
    (floor.desk.stations.set 3 { station3 with presence := .detached })[3]? = some { station3 with presence := .detached } ∧
    (sending .routineDelivery (.changes [37] 1) (.entry 37 false)).output = .line ⟨1, false, [], .entry 37 false⟩ ∧
    (∀ x ∈ station3.watch, x.record ≠ 4) ∧ floor.desk.transaction = none ∧
    ∀ line n b, (sending .routineDelivery (.changes [37] 1) .header).output = .line line → line.source ≠ .entry n b :=
  ⟨by decide, rfl, by decide, by decide, by decide, by decide, by decide, rfl, by decide, rfl, fun _ _ _ h1 h2 => by cases h1; cases h2⟩

/-- `floor` with the walk about to reach a number. -/
def walking (start : Nat) : State := { floor with store := { floor.store with walk := some start } }

/-- WalkReachesEveryRecord: the walk at 0, at the record itself, and past the last record, with a request held and none, and an
operation that the walk's end leaves WORKING. -/
theorem test_witness_WalkReachesEveryRecord : (walking 0).store.walk = some 0 ∧ (walking 0).recordsTabled ∧
    ((walking 0).record? 4 = some ab ∧ ∀ r', 0 ≤ r' → r' < 4 → (walking 0).record? r' = none) ∧
    ((walking 37).record? 37 = some xyz ∧ ∀ r', 37 ≤ r' → r' < 37 → (walking 37).record? r' = none) ∧
    (∀ r', 38 ≤ r' → (walking 38).record? r' = none) ∧ (walking 38).noRequestHeld ∧
    (onLine (walking 38) .request { withStation3 with window := none, held := some (LookupRequest.recent "XYZ".toList) } false true).desk.transaction =
      some { withStation3 with window := none, held := some (LookupRequest.recent "XYZ".toList) } ∧
    (DirOperation.draining (.dropAlias "XZ".toList) true ≠ .idle ∧ (walking 38).intake.holdsMarked = false) := by
  refine ⟨rfl, floor_references.2.2.1, ⟨by decide, fun r' _ h => ?_⟩, ⟨by decide, fun r' h1 h2 => by omega⟩, fun r' h => ?_,
    fun t h => (by cases h), rfl, by decide⟩
  · have : r' = 0 ∨ r' = 1 ∨ r' = 2 ∨ r' = 3 := by omega
    rcases this with rfl | rfl | rfl | rfl <;> decide
  · have h1 : ¬ 4 = r' := by omega
    have h2 : ¬ 37 = r' := by omega
    simp [State.record?, walking, floor, tableGet, h1, h2]

/-- XYZ in a move with its hold deadline at 500. -/
def moving : QuoteRecord := { xyz with monitor := ⟨⟨32, 8, 2, 3⟩, .releasing, 1, some 5, some .up, some 500⟩ }

/-- FloorTimeAndHoldsExpire: the second due and not due, 23:59:59, a hold at its deadline and before it. -/
theorem test_witness_FloorTimeAndHoldsExpire : reached 1000 floor.store.secondAt = true ∧ reached 999 floor.store.secondAt = false ∧
    (FloorTime.advanced ⟨23, 59, 59⟩ = ⟨0, 0, 0⟩) ∧ (floor.setRecord 37 moving).record? 37 = some moving ∧
    moving.monitor.state = .releasing ∧ moving.monitor.hold = some 500 ∧ reached 500 500 = true ∧ reached 499 500 = false := by decide

/-- Tape A with an item on its ribbon at a level, and items queued. -/
def taping (level : Nat) (queue : List Item) (ribbon : Ribbon) : State :=
  { floor with tapeA := { floor.tapeA with level := level, queue := queue, ribbon := ribbon } }

/-- An OMITTED notice with stamp 0, and a resumption item. -/
def resumedItem : Item := ⟨0, .resumed "XYZ".toList⟩

/-- RibbonStartsNextText: each ribbon with the queue empty and not; a lateness of 59 s and 60 s at level 0. -/
theorem test_witness_RibbonStartsNextText : (taping 0 [] (.item [] 0)).tapeA.ribbon = .item [] 0 ∧
    (taping 0 [resumedItem] (.item [] 0)).tapeA.queue = resumedItem :: [] ∧ nextLevel floor.params 0 (lateness 59999 0) = 0 ∧
    nextLevel floor.params 0 (lateness 60000 0) = 1 ∧ (taping 1 [] (.notice [] 0)).tapeA.ribbon = .notice [] 0 ∧ reached 60000 0 = true := by
  decide

/-- OffersAndCancelsChangeQueue: a queued print to merge into with seven sequences, and with eight; a print of a code with none
queued; 126 and 127 items, a queued OMITTED notice, an IDLE ribbon at levels 0, 1 and 3; a queued print that holds the cancelled
number alone, with another, twice, and not. -/
theorem test_witness_OffersAndCancelsChangeQueue :
    (taping 3 [⟨0, .print "XYZ".toList 5 8 100 .regular [1, 2, 3, 4, 5, 6, 7]⟩] (.item [] 0)).tapeA.queue =
        [] ++ ⟨0, .print "XYZ".toList 5 8 100 .regular [1, 2, 3, 4, 5, 6, 7]⟩ :: [] ∧ [1, 2, 3, 4, 5, 6, 7].length < 8 ∧
      (taping 0 [] (.item [] 0)).tapeA.ribbon ≠ .idle ∧ (List.replicate 126 resumedItem).length < 127 ∧
      127 ≤ (List.replicate 127 resumedItem).length ∧
      (taping 0 [⟨0, .omitted 999⟩] (.item [] 0)).tapeA.queue = [] ++ ⟨0, .omitted 999⟩ :: [] ∧
      (floor.tapeA.ribbon = .idle ∧ floor.tapeA.queue = [] ∧ floor.tapeA.level = 0 ∧ floor.tapeA.omitted = 0) ∧
      (1 ≤ floor.params.enter1 ∧ 1 ≤ floor.params.enter2 ∧ 1 ≤ floor.params.enter3) ∧
      ([1].filter fun x => x ≠ 1) = [] ∧ ([1, 2].filter fun x => x ≠ 1) ≠ [] ∧ ([1, 2, 1].filter fun x => x ≠ 1) ≠ [] ∧
      (taping 3 [⟨0, .print "XYZ".toList 5 8 100 .regular [1, 2, 3, 4, 5, 6, 7, 8]⟩] (.item [] 0)).tapeA.queue =
        [] ++ ⟨0, .print "XYZ".toList 5 8 100 .regular [1, 2, 3, 4, 5, 6, 7, 8]⟩ :: [] ∧ 8 ≤ [1, 2, 3, 4, 5, 6, 7, 8].length ∧
      (∀ i ∈ [resumedItem], i.kind = .resumed "XYZ".toList) ∧
      ((taping 1 [] .idle).tapeA.ribbon = .idle ∧ (taping 3 [] .idle).tapeA.level ≤ 3 ∧ 1 ≤ (taping 1 [] .idle).tapeA.level) ∧
      (taping 3 [] .idle).params.enter3 = 240 := by decide +kernel

/-- `floor` with panel 0 OUT, panel 2 PROBING with no assigned cells, cells of panels 0, 1 and 2 queued, and block size 1. -/
def queuedCells : State :=
  { floor with
    params := { floor.params with blockSize := 1 }
    board := { floor.board with panels := (floor.board.panels.set 0 ⟨.out, 8⟩).set 2 ⟨.probing, 8⟩, dirty := [3, 150, 71, 72, 9, 160] } }

/-- A block of the one unassigned cell 63 of panel 3. -/
def blankBlock : Block :=
  { panel := 3, cells := [255], updates := [floor.cellUpdate 255], check := blockCheck 3 [floor.cellUpdate 255], deadline := 0 }

/-- Section 10.5: a block of one blank update, cell 63, 28 spaces, volume and tick 0 and attributes 1, with its check: the panel 3,
the count 1, 63, 28 spaces of 32 and 1, 964 in all, 3 and 196 in two characters. -/
theorem test_blank_block : blankBlock.characters = [170, 3, 1, 63] ++ List.replicate 28 32 ++ [0, 0, 0, 0, 1, 3, 196] := by
  decide +kernel

/-- BlocksGatherOnePanel: cells of an OUT panel and of a PROBING one with no assigned cells at the head, block size 1, a queue of
such cells alone, a board PAUSED; a cell queued and one not, marked; a block with one update and its check. -/
theorem test_witness_BlocksGatherOnePanel : queuedCells.board.lawful ∧ 1 ≤ queuedCells.params.blockSize ∧
    queuedCells.board.dirty = [3, 150] ++ 71 :: [72, 9, 160] ∧
    (∀ x ∈ [3, 150], queuedCells.board.panelState (x / 64) = .out ∨
      (queuedCells.board.panelState (x / 64) = .probing ∧ ∀ e ∈ queuedCells.board.cellMap, e.1 / 64 ≠ x / 64)) ∧
    (queuedCells.board.panelState (71 / 64) ≠ .out ∧ queuedCells.board.panelState (71 / 64) ≠ .probing) ∧
    (∀ x ∈ [3, 9], queuedCells.board.panelState (x / 64) = .out) ∧ (flying .running).board.block ≠ none ∧
    (71 ∈ queuedCells.board.dirty ∧ 73 ∉ queuedCells.board.dirty ∧ [72, 73].Nodup) ∧
    (blankBlock.panel < 256 ∧ blankBlock.updates.length < 256 ∧ blankBlock.updates[0]? = some (floor.cellUpdate 255) ∧
      blankBlock.check = blockCheck 3 blankBlock.updates) := by
  refine ⟨⟨by decide, by decide, rfl, ?_, ⟨by decide, by decide⟩, fun _ h => by cases h⟩, by decide⟩
  intro p hp
  have : p = ⟨.out, 8⟩ ∨ p = Panel.fresh ∨ p = ⟨.probing, 8⟩ ∨ p = Panel.fresh := by
    simpa [queuedCells, floor, unit5, State.reset, State.powered, Board.cleared, List.replicate] using hp
  rcases this with rfl | rfl | rfl | rfl
  · exact (rfl : (8 : Nat) = 8)
  · exact Nat.zero_le 7
  · exact (rfl : (8 : Nat) = 8)
  · exact Nat.zero_le 7

/-- R110: the cell 2.22 of a PROBING panel with no assigned cells is sent no block: the block goes to panel 1, and panel 2 stays
PROBING. -/
theorem test_unprobed_panel : shows .blockAssembly queuedCells (fun t => (t.board.block.map fun b => (b.panel, b.cells),
    t.board.panelState 2)) = some (some (1, [71]), .probing) := by decide +kernel

/-- CellUpdateShowsRecord: an unassigned cell, an assigned one with last and without, 9,999 and 10,000 dollars. -/
theorem test_witness_CellUpdateShowsRecord : tableGet floor.board.cellMap 255 = none ∧ tableGet floor.board.cellMap 71 = some 37 ∧
    floor.record? 37 = some xyz ∧ tableGet floor.board.cellMap 9 = some 4 ∧ floor.record? 4 = some ab ∧ ab.last = none ∧
    639999 / (64 / 64) * (64 / 64) / 64 ≤ 9999 ∧ 9999 < 640000 / (64 / 64) * (64 / 64) / 64 := by decide

/-- BlockOutcomesMovePanels: a block of panel 1 in flight, PAUSING; its panel's count 6 and 7; right and wrong answers. -/
theorem test_witness_BlockOutcomesMovePanels : (flying .pausing).board.lawful ∧
    (flying .pausing).board.panels[1]? = some Panel.fresh ∧ (1#8).toNat = 1 ∧ (7#8).toNat = 7 % 256 ∧ (2#8).toNat ≠ 1 ∧
    (6 < 7 ∧ ¬ 7 < 7) ∧ reached 0 0 = true := by
  obtain ⟨a, b, c, d, _, _⟩ := floor_board
  refine ⟨⟨a, b, c, d, ⟨by decide, by decide⟩, ?_⟩, by decide⟩
  intro blk h
  cases h
  decide

/-- A page of station 15 that waits for station 3. -/
def suspended15 (started : Bool) : SuspendedPage :=
  { station := 15, reply := true, page := .quote 37 [6], nextLine := 6, causing := 3, started := started }

/-- PresenceScanConfirmsChanges: a scan due; station 3 gone and station 15 come; station 3's transaction and page, and a page that
it caused to wait. -/
theorem test_witness_PresenceScanConfirmsChanges : reached 100 floor.desk.scanAt = true ∧ floor.desk.stations.length = 16 ∧
    ((0#16).getLsbD 3 = false ∧ floor.desk.scanPrevious.getLsbD 3 = false) ∧ ((0x8000#16).getLsbD 15 = true) ∧
    Station.fresh.presence = .detached ∧ requesting.desk.transaction = some withStation3 ∧ requesting.desk.slot = none ∧
    ((suspended15 false).causing = 3 ∧ floor.desk.stations[3]? = some station3 ∧ station3.presence ≠ .detached) := by decide

/-- `floor` with station 3 alerting, in STREAM mode with its flag set or with a pending mark, and a page of it in the slot. -/
def alerting3 : Station := { station3 with alerts := [⟨37, .halt, none⟩] }

/-- A desk of `floor` with station 3 replaced. -/
def with3 (st : Station) : State := { floor with desk := { floor.desk with stations := floor.desk.stations.set 3 st } }

/-- ArbiterTakesFirstItem: the line not FREE; a page started and one not; an alert; attention with nothing due, and a delivery due. -/
theorem test_witness_ArbiterTakesFirstItem : requesting.desk.line ≠ .free ∧
    (floor.desk.line = .free ∧ floor.desk.busy = false ∧ floor.stuckDue = false ∧ floor.desk.stations.length = 16) ∧
    (suspended15 true).started = true ∧
    ((with3 alerting3).desk.stations[(suspended15 false).causing]? = some alerting3 ∧ alerting3.alerting) ∧
    firstRound (with3 alerting3).desk.stations 2 (fun _ st => st.alerting) 3 ∧ (∀ st ∈ floor.desk.stations, ¬ st.alerting) ∧
    (∀ st ∈ floor.desk.stations, ¬ st.isDue) ∧
    firstRound (with3 { station3 with mode := .stream, streamAt := some 9, streamDue := true }).desk.stations 2
      (fun _ st => st.isDue) 3 := by
  have hs : ∀ st ∈ floor.desk.stations, st = Station.fresh ∨ st = station3 := by decide
  refine ⟨by decide, by decide, rfl, ⟨rfl, rfl, by decide⟩, ⟨0, by decide, rfl, ⟨alerting3, rfl, rfl, by decide⟩, fun _ h => by omega⟩, ?_, ?_,
    ⟨0, by decide, rfl, ⟨_, rfl, rfl, Or.inl ⟨rfl, rfl⟩⟩, fun _ h => by omega⟩⟩
  · intro st h ha
    rcases hs st h with rfl | rfl <;> exact ha.2 rfl
  · intro st h ha
    rcases hs st h with rfl | rfl
    · exact absurd ha.1 (by decide)
    · rcases ha.2 with hh | ⟨_, e, he, hp⟩
      · exact absurd hh.1 (by decide)
      · revert e
        decide

/-- `floor` in a claim round that stations have answered. -/
def claiming (answered : List Nat) (stations : List Station) : State :=
  { floor with desk := { floor.desk with line := .claim, answered := answered, stations := stations } }

/-- ClaimRoundSelectsHighestUnserved: an ATTACHED and a DETACHED answer; a void round; one claimant unserved, and served; an answer
to SELECT with and without DESK BUSY. -/
theorem test_witness_ClaimRoundSelectsHighestUnserved : (claiming [] floor.desk.stations).desk.stations[3]? = some station3 ∧
    floor.desk.stations[15]? = some Station.fresh ∧ (∀ m x, ¬ ((claiming [] floor.desk.stations).desk.stations[m]? = some x ∧
      m ∈ (claiming [] floor.desk.stations).desk.answered ∧ x.presence ≠ .detached)) ∧
    (3 ∈ (claiming [3] floor.desk.stations).desk.answered ∧ station3.served = false) ∧
    (onLine floor .selecting withStation3 false true).desk.busy = true ∧ (onLine floor .selecting withStation3 false false).desk.busy = false :=
  ⟨by decide, by decide, fun _ _ h => (by simpa [claiming] using h.2.1), by decide, rfl, rfl⟩

/-- RequestsAreServed, WatchRequestsEditList: a request awaited while HELD and RUNNING, lookups stopped and not, a code found and not,
an entry on the list and none, twelve entries, level 0 and levels 1 and 1,048,575. -/
theorem test_witness_requests : requesting.awaitsRequest withStation3 ∧ requesting.desk.stations[3]? = some station3 ∧
    requesting.desk.stations.length = 16 ∧
    { requesting with manager := { requesting.manager with state := .held } }.awaitsRequest withStation3 ∧
    requesting.manager.state = .running ∧ (2 < 3 ∧ 2 ≤ 2) ∧
    (onLine (walking 0) .request withStation3 false true).store.walk ≠ none ∧
    (onLine (walking 0) .request withStation3 false true).awaitsRequest withStation3 ∧
    (requesting.directory.isWorking = false ∧ requesting.store.walk = none) ∧
    lookupCode requesting.directory.entries "Q".toList = none ∧ requesting.finds "XZ".toList 37 xyz ∧
    requesting.finds "AB".toList 4 ab ∧ (∃ e ∈ station3.watch, e.record = 37) ∧ (∀ e ∈ station3.watch, e.record ≠ 4) ∧
    (isPriceOption (some 1) = true ∧ isPriceOption (some 1048575) = true) ∧ isPriceOption (some 0) = false ∧
    isPriceOption (some 1048576) = false ∧ lookupCode requesting.directory.entries "XZ".toList = some 37 ∧ 12 ≤ (List.replicate 12 (⟨1, none, none, false, false⟩ : WatchEntry)).length :=
  ⟨⟨rfl, rfl, rfl⟩, by decide, rfl, ⟨rfl, rfl, rfl⟩, rfl, by decide, by decide, ⟨rfl, rfl, rfl⟩, by decide, by decide, ⟨by decide, by decide⟩,
    ⟨by decide, by decide⟩, by decide⟩

/-- Station 3 with its entry marked. -/
def marked3 : Station := { station3 with watch := [⟨37, none, none, false, true⟩] }

/-- LinesFollowOneAnother: the last line; a line left with a break, with another station alerting, and with neither; END. A ring and a
list with their things gone, pending marks with and without their lines had, 11 and 12 lines. -/
theorem test_witness_LinesFollowOneAnother :
    (onLine floor .reply (sending .request (.quote 37 []) .plain) true true).nextItem 3 (.quote 37 []) = none ∧
      ((onLine floor .reply (sending .request (.quote 37 [6]) .plain) true true).nextItem 3 (.quote 37 [6])).isSome = true ∧
      (onLine floor .reply (sending .request (.quote 37 [6]) .plain) true true).desk.attn = true ∧
      firstRound (floor.desk.stations.set 4 alerting3) 15 (fun m x => m ≠ 3 ∧ x.alerting) 4 ∧
      (∀ n ∈ List.range 16, ∀ x, floor.desk.stations[n]? = some x → n = 3 ∨ ¬ x.alerting) ∧ floor.desk.slot = none ∧
      ((xyz.ring.map Print.sequence).Nodup ∧ ∀ p ∈ xyz.ring, p.sequence ≠ 7) ∧
      ((station3.watch.map WatchEntry.record).Nodup ∧ ∀ e ∈ station3.watch, e.record ≠ 4) ∧ (12 ≤ 12 ∧ 11 < 12) ∧
      (∀ e ∈ station3.watch, e.pending = true → e.record ∈ ([] : List Nat)) ∧
      (marked3.watch = [] ++ ⟨37, none, none, false, true⟩ :: [] ∧ 37 ∉ [4] ∧ alerting3.alerts = ⟨37, .halt, none⟩ :: []) := by
  refine ⟨by decide +kernel, by decide +kernel, rfl, ⟨4, by decide, rfl, ⟨alerting3, rfl, by decide, rfl, by decide⟩, ?_⟩, ?_, rfl, by decide,
    by decide, by decide, by decide, rfl, by decide, rfl⟩
  · intro d hd st hst hp
    have : d = 0 ∨ d = 1 ∨ d = 2 ∨ d = 3 := by omega
    rcases this with rfl | rfl | rfl | rfl <;> cases hst <;> first | exact absurd hp.2.1 (by decide) | exact absurd rfl hp.1
  · intro n _ x hx
    by_cases h : n = 3
    · exact Or.inl h
    · right
      intro ha
      have hm := List.mem_of_getElem? hx
      have : ∀ st ∈ floor.desk.stations, st.alerts = [] := by decide
      exact ha.2 (this x hm)

/-- TransactionsBeginAndEnd: a page suspending, a receipt awaited, READY in RESELECTING, a window due, a second and a third failure. -/
theorem test_witness_TransactionsBeginAndEnd :
    (onLine floor .reply { sending .request (.quote 37 [6]) .plain with output := .suspending 4 } false true).desk.stations[3]? =
        some station3 ∧
      (onLine floor .delivery { sending .routineDelivery (.changes [] 0) .plain with output := .receiptAwaited } false true).desk.line =
        .delivery ∧
      (onLine floor .reselecting { sending .alertDelivery (.alerts 0) .plain with output := .nothing } false true).desk.busy = true ∧
      withStation3.window = some 500 ∧ reached 500 500 = true ∧ (2 ≤ 2 ∧ ¬ 2 ≤ 1) := by decide

/-- A void claim round that ends at a stuck deadline with DESK ATTN held, and with it dropped: the expiry that was held is taken as
the line becomes FREE, and is cleared (R136). -/
theorem test_held_expiry :
    shows .claimRoundCompletion { claiming [] floor.desk.stations with desk := { (claiming [] floor.desk.stations).desk with
      attn := true, stuckAt := some 0 } } (fun t => (t.desk.line, t.desk.stuckAt)) = some (.clearing, none) ∧
    shows .claimRoundCompletion { claiming [] floor.desk.stations with desk := { (claiming [] floor.desk.stations).desk with
      stuckAt := some 0 } } (fun t => (t.desk.line, t.desk.stuckAt)) = some (.free, none) := by decide +kernel

/-- StuckLineIsCleared: DESK ATTN raised in REQUEST with DESK BUSY held, each line state, the deadlines due, the signals held and not, a stream timer running and not. -/
theorem test_witness_StuckLineIsCleared : floor.desk.stations.length = 16 ∧ requesting.desk.busy = true ∧
    requesting.desk.transaction = some withStation3 ∧ requesting.desk.stations[3]? = some station3 ∧ floor.desk.line = .free ∧
    floor.desk.attn = false ∧ floor.desk.busy = false ∧ reached 0 0 = true ∧ station3.streamAt = none ∧
    ((claiming [] floor.desk.stations).desk.line = .claim ∧ (claiming [] floor.desk.stations).desk.answered = []) ∧
    (with3 { station3 with mode := .stream, streamAt := some 0 }).desk.stations[3]? =
      some { station3 with mode := .stream, streamAt := some 0 } := by decide

/-- StrayFramesAreFaults: no transaction, in FREE and in CLAIM; a transaction in REPLY, and one in REQUEST with a request held. -/
theorem test_witness_StrayFramesAreFaults : (floor.desk.transaction = none ∧ floor.desk.line ≠ .claim) ∧
    (onLine floor .reply withStation3 false true).desk.line ≠ .request ∧
    (waiting (.dropAlias "XZ".toList)).desk.transaction.bind Transaction.held ≠ none ∧
    (waiting (.dropAlias "XZ".toList)).desk.stations[3]? = some station3 ∧
    (claiming [] floor.desk.stations).desk.transaction = none ∧ (claiming [] floor.desk.stations).desk.line = .claim := by decide

/-- CharactersParseBack: operands at the ends of their fields, a reply body of 58 characters, a request row of each length, a frame
of the part and none, stations 0 and 255; a line, each ending and a receipt awaited; SUSPEND, SELECT, RESELECT, RESUME and REQUEST. -/
theorem test_witness_CharactersParseBack : (Command.setCell 255 255 (some 65534)).wellFormed = true ∧
    (Command.loadWatch 255 (List.replicate 11 ⟨511, some 16777215, none, true⟩)).wellFormed = true ∧
    (MarketMsg.notice (List.replicate 59 'A')).wellFormed = true ∧
    (MarketMsg.figures "ABCDE".toList 16777215 none (some 0) none (some 4294967295)).wellFormed = true ∧ 255 < 256 ∧ 4095 ≤ 4095 ∧
    (ReplyBody.counters Counters.zero).characters.length ≤ 58 ∧
    (ReplyBody.watchEntries (List.replicate 4 ⟨⟨37, none, none, false, false⟩, none⟩)).characters.length ≤ 58 ∧
    (Instr.watchAdd "A".toList (some 16777215) none true).wellFormed = true ∧ (requestFields .watchPage).1 ≠ 0 ∧
    (stationRequest 255 (.setMode 255 0)).length = 6 ∧ (requesting.desk.transaction.map Transaction.station) = some 3 ∧
    (onLine floor .reply (sending .request (.quote 37 []) .plain) false true).deskFrame ≠ none ∧ (14#8).toNat = 14 := by
  decide +kernel

/-- Section 10.4: the frames of station 3 by line state and output, the check making each sum 0. -/
theorem test_part_frames :
    let shown := fun (line : LineState) (kind : TransactionKind) (output : Output) =>
      (onLine floor line { withStation3 with kind := kind, output := output } false true).deskFrame
    { floor with desk := { floor.desk with line := .claim } }.deskFrame = some [1, 255] ∧ floor.deskFrame = none ∧
    shown .selecting .request .nothing = some [2, 3, 251] ∧ shown .reselecting .routineDelivery .nothing = some [3, 3, 250] ∧
    shown .reselecting (.resumption false) .nothing = some [4, 3, 249] ∧ shown .reply .request (.suspending 4) = some [5, 3, 248] ∧
    shown .reply .request (.ending false) = some [7, 249] ∧ shown .reply .request (.ending true) = some [8, 248] ∧
    shown .reply .request .receiptAwaited = none ∧ shown .request .request .nothing = none := by decide +kernel

end Sys2Proof.Tests
end

section
/-! PROOF. What the market messages that name a record do to it: SLD prints, QUOTE, HALT, RESUME and FIGURES (R35, R38 to R40,
R45 to R48). -/

namespace Sys2Proof.Machine

/-! ### What a message for a record leaves alone -/

/-- A print off its grid changes the off-grid counter alone (R24). -/
theorem State.countOffGrid_eq (s : State) (grid price : Nat) :
    s.countOffGrid grid price =
      { s with
        counters :=
          if price % (64 / grid) = 0 then s.counters
          else { s.counters with offGrid := min 65535 (s.counters.offGrid + 1) } } := by
  unfold State.countOffGrid
  by_cases h : price % (64 / grid) = 0 <;> simp [onGrid, gridStep, bump, h]

/-- Counting a print off its grid leaves the directory as it stands. -/
@[simp] theorem State.countOffGrid_directory (s : State) (grid price : Nat) :
    (s.countOffGrid grid price).directory = s.directory := by rw [State.countOffGrid_eq]

/-- Offering a print leaves the directory as it stands. -/
@[simp] theorem State.offerPrint_directory (s : State) (q : QuoteRecord) (p : Print) :
    (s.offerPrint q p).directory = s.directory := by
  unfold State.offerPrint
  split
  · exact State.offer_directory s _ _ _
  · rfl

/-- A cancel handed to one tape leaves the directory as it stands. -/
@[simp] theorem State.cancelOn_directory (s : State) (id : TapeId) (code : Code) (sequence price grid volume : Nat) :
    (s.cancelOn id code sequence price grid volume).directory = s.directory := by rw [State.cancelOn_frame]

/-- A cancel handed to the tapes leaves the directory as it stands. -/
@[simp] theorem State.cancel_directory (s : State) (toA toB : Bool) (code : Code) (sequence price grid volume : Nat) :
    (s.cancel toA toB code sequence price grid volume).directory = s.directory := by
  cases toA <;> cases toB <;> simp [State.cancel]

/-- A message applied to its record leaves the directory as it stands. -/
theorem State.applyToRecord_directory (s : State) (r : Nat) (q : QuoteRecord) (sequence : Nat) (m : MarketMsg) :
    (s.applyToRecord r q sequence m).directory = s.directory := by
  cases m with
  | print code price volume condition =>
    simp only [State.applyToRecord]
    cases conditionOf condition with
    | none => rfl
    | some c =>
      simp only [State.applyPrint]
      split <;> simp
  | cancel code cancelled price volume =>
    simp only [State.applyToRecord, State.applyCancel, State.afterCancelFound]
    split
    · split <;> simp
    · simp
  | halt code n =>
    simp only [State.applyToRecord]
    cases reasonOf n with
    | none => rfl
    | some why =>
      simp only [State.applyHalt]
      split <;> simp
  | resume code =>
    simp only [State.applyToRecord, State.applyResume]
    split <;> simp
  | quote _ _ _ => rfl
  | figures _ _ _ _ _ _ => rfl
  | notice _ => rfl
  | dayStart => rfl
  | session _ => rfl
  | time _ _ _ => rfl

/-! ### From the intake queue to the record -/

/-- A message whose code is found is applied to the record its code names (R174 item 4). -/
theorem State.applyMessage_finds {s : State} {code : Code} {r : Nat} {q : QuoteRecord} (sequence : Nat) {m : MarketMsg}
    (hcode : messageCode m = some code) (hfinds : s.finds code r q) :
    s.applyMessage sequence m = s.applyToRecord r q sequence m := by
  obtain ⟨hlookup, hrecord⟩ := hfinds
  have hbind : (messageCode m).bind (lookupCode s.directory.entries) = some r := by rw [hcode]; exact hlookup
  cases m with
  | dayStart => cases hcode
  | session _ => cases hcode
  | time _ _ _ => cases hcode
  | notice _ => cases hcode
  | _ => simp only [State.applyMessage, hbind, hrecord]

/-- DAY START aside, R33's checks are the field checks. -/
theorem messageSound_of_code {m : MarketMsg} {code : Code} (hcode : messageCode m = some code) (session : Session) :
    messageSound session m = fieldsSound m := by
  cases m with
  | dayStart => cases hcode
  | _ => rfl

/-- The classifier applies a sound message to the record its code names (R173, R174). -/
theorem exec_classifierTake_finds {s : State} {m : IntakeMessage} {rest : List IntakeMessage} {code : Code} {r : Nat}
    {q : QuoteRecord} (hclass : s.classifies m rest) (hcode : messageCode m.message = some code) (hfinds : s.finds code r q)
    (hsound : fieldsSound m.message = true) :
    exec .classifierTake s =
      .next (State.applyToRecord { s with intake := { s.intake with queue := rest } } r q m.sequence m.message) := by
  have happly := State.applyMessage_finds (s := { s with intake := { s.intake with queue := rest } }) m.sequence hcode hfinds
  have hexec := exec_classifierTake s m rest hclass
  simp only [happly, State.applyToRecord_directory, messageSound_of_code hcode, hsound] at hexec
  obtain ⟨_, _, hidle, _⟩ := hclass
  exact hexec hidle

/-! ### A print taken as SLD -/

/-- A print joins the ring in place of one of its sequence, the oldest leaving a full ring (R31). -/
theorem pushRing_eq (ring : List Print) (p : Print) :
    pushRing ring p =
      (let others := ring.filter fun x => x.sequence ≠ p.sequence
       (if 4 ≤ others.length then others.drop 1 else others) ++ [p]) := by
  simp [pushRing, bne, BEq.beq]

/-- Condition SLD, or a HALTED record: the print is not taken as regular (R35). -/
theorem takenAsRegular_sld {q : QuoteRecord} {c : Condition} (h : c = .sld ∨ q.halted ≠ none) :
    takenAsRegular q c = false := by
  rcases h with rfl | h
  · simp [takenAsRegular]
  · simp [takenAsRegular, h]

/-- A print of a condition that the feed has names one of the three, 2 being SLD (R191). -/
theorem conditionOf_le_two {c : Nat} (h : c ≤ 2) : ∃ k, conditionOf c = some k ∧ (c = 2 → k = .sld) := by
  interval_cases c <;> exact ⟨_, rfl, by decide⟩

/-- A print not taken as regular moves day volume and the ring alone, its cells marked, and is offered as SLD where it is of
100 shares or more (R24, R38, R39). -/
theorem State.applyPrint_sld {q : QuoteRecord} {p : Print} (s : State) (r : Nat)
    (h : takenAsRegular q p.condition = false) :
    s.applyPrint r q p =
      (let applied := State.setRecord
        { s with
          counters :=
            if p.price % (64 / q.grid) = 0 then s.counters
            else { s.counters with offGrid := min 65535 (s.counters.offGrid + 1) }
          board := { s.board with dirty := Machine.markCells s.board.dirty q.cells } }
        r (q.sldPrint p)
       if p.volume < 100 then applied
       else applied.offer (q.maskA || s.params.scopeAll) q.maskB
        (.print q.code p.price q.grid p.volume .sld [p.sequence])) := by
  simp only [State.applyPrint, h, State.countOffGrid_eq, State.offerPrint, Bool.false_eq_true, if_false]
  by_cases hv : p.volume < 100
  · rw [if_pos hv, if_neg (by omega)]; rfl
  · rw [if_neg hv, if_pos (by omega)]; rfl

/-! ### HALT and RESUME by the state of the record -/

/-- HALT on a NORMAL record: halted, its monitor CALM, its cells marked, an alert, and the item by its masks (R45). -/
theorem State.applyHalt_normal {q : QuoteRecord} (s : State) (r : Nat) (reason : HaltReason) (h : q.halted = none) :
    s.applyHalt r q reason =
      (State.setRecord
        { s with
          board := { s.board with dirty := Machine.markCells s.board.dirty q.cells }
          desk := s.desk.touch r (alertOf .halt (q.last.map Prod.fst)) }
        r { q with halted := some reason, monitor := q.monitor.calmed }).offer q.maskA q.maskB (.halted q.code reason) := by
  simp only [State.applyHalt, h, Option.isSome_none, Bool.false_eq_true, if_false]
  rfl

/-- HALT on a HALTED record replaces the reason and does nothing else (R46). -/
theorem State.applyHalt_halted {q : QuoteRecord} (s : State) (r : Nat) (reason : HaltReason) (h : q.halted ≠ none) :
    s.applyHalt r q reason = s.setRecord r { q with halted := some reason } := by
  simp [State.applyHalt, Option.isSome_iff_ne_none.2 h]

/-- RESUME on a HALTED record: NORMAL, its baseline settled, its cells marked, an alert, and the item by its masks (R47). -/
theorem State.applyResume_halted {q : QuoteRecord} (s : State) (r : Nat) (h : q.halted ≠ none) :
    s.applyResume r q =
      (State.setRecord
        { s with
          board := { s.board with dirty := Machine.markCells s.board.dirty q.cells }
          desk := s.desk.touch r (alertOf .resume (q.last.map Prod.fst)) }
        r { q with
          halted := none
          monitor := { q.monitor with
            baseline := settledBaseline q.last q.prevClose q.monitor.baseline } }).offer q.maskA q.maskB (.resumed q.code) := by
  simp only [State.applyResume, Option.isNone_eq_false_iff.2 (Option.isSome_iff_ne_none.2 h), Bool.false_eq_true, if_false]
  rfl

/-- RESUME on a NORMAL record does nothing (R47). -/
theorem State.applyResume_normal {q : QuoteRecord} (s : State) (r : Nat) (h : q.halted = none) : s.applyResume r q = s := by
  simp [State.applyResume, h]

/-! ### FIGURES -/

/-- A field that a FIGURES marks present replaces the one kept (R48). -/
theorem orKept_eq_or {α : Type} (given kept : Option α) : orKept given kept = given.or kept := by
  cases given <;> rfl

/-- FIGURES replaces the fields it gives, its previous close the baseline of a record with no regular print (R48, R69). -/
theorem QuoteRecord.figures_eq (q : QuoteRecord) (prevClose : Nat) (opening high low volume : Option Nat) :
    q.figures prevClose opening high low volume =
      { q with
        prevClose := some prevClose
        opening := opening.or q.opening
        high := high.or q.high
        low := low.or q.low
        volume := volume.getD q.volume
        monitor := if q.traded then q.monitor else { q.monitor with baseline := some (prevClose * 256) } } := by
  simp only [QuoteRecord.figures, orKept_eq_or]

/-! ### The obligation -/

/-- Settles O34: each message is taken by `exec_classifierTake_finds` and its effect read off the lemma for its kind. -/
theorem recordMessagesApply : Obligations.RecordMessagesApply := by
  refine ⟨?sldPrint, ?others⟩
  case sldPrint =>
    intro code p v c seq r marked q rest s hclass hfinds hwf hp hv hc hsld
    obtain ⟨k, hk, hk2⟩ := conditionOf_le_two hc
    have hsound : fieldsSound (.print code p v c) = true := by simp [fieldsSound, hwf, hp, hv, hk]
    have hregular : takenAsRegular q k = false := takenAsRegular_sld (hsld.imp_left hk2)
    rw [exec_classifierTake_finds hclass rfl hfinds hsound]
    simp only [State.applyToRecord, hk]
    rw [State.applyPrint_sld _ r hregular, QuoteRecord.sldPrint, pushRing_eq]
    rfl
  case others =>
    intro code seq r n prevClose opening high low volume bid ask reason marked q m rest s hclass hfinds hsound
    have taken := fun hcode => exec_classifierTake_finds hclass (code := code) hcode hfinds hsound
    refine ⟨?quote, ?halt, ?haltAgain, ?resume, ?resumeNormal, ?figures⟩
    case quote =>
      rintro rfl
      exact taken rfl
    case halt =>
      rintro rfl hreason hnormal
      rw [taken rfl]
      simp only [State.applyToRecord, hreason, State.applyHalt_normal _ r reason hnormal]
      rfl
    case haltAgain =>
      rintro rfl hreason hhalted
      rw [taken rfl]
      simp only [State.applyToRecord, hreason, State.applyHalt_halted _ r reason hhalted]
    case resume =>
      rintro rfl hhalted
      rw [taken rfl]
      simp only [State.applyToRecord, State.applyResume_halted _ r hhalted]
      rfl
    case resumeNormal =>
      rintro rfl hnormal
      rw [taken rfl]
      simp only [State.applyToRecord, State.applyResume_normal _ r hnormal]
    case figures =>
      rintro rfl
      rw [taken rfl]
      simp only [State.applyToRecord, State.applyFigures, QuoteRecord.figures_eq]
      rfl

end Sys2Proof.Machine
end

section
/-! PROOF. The move monitor on a regular print: one equation for each state of Table 3-2, one for T 0 and one for an absent
baseline (R58 to R65). -/

namespace Sys2Proof.Machine

/-! ### The print's effect by the monitor's state -/

/-- The filter step over the integers, its divisor a power of two there (R59). -/
theorem filteredBaseline_eq (k price baseline : Nat) :
    filteredBaseline k price baseline =
      ((baseline : Int) + Int.tdiv ((price : Int) * 256 - (baseline : Int)) (2 ^ k)).toNat := by
  rw [filteredBaseline, monitorDifference, Nat.cast_pow, Nat.cast_ofNat]

/-- A print that finds no baseline sets it and does nothing else (R58). -/
theorem Monitor.take_unset {m : Monitor} (price hold : Nat) (now : Reading) (hbase : m.baseline = none) :
    m.take price now hold = ({ m with baseline := some (price * 256) }, false) := by
  simp only [Monitor.take, hbase]

section
variable {m : Monitor} {b : Nat} (price hold : Nat) (now : Reading)

/-- A monitor turned off stays CALM and its baseline tracks (R65). -/
theorem Monitor.take_off (hbase : m.baseline = some b) (hoff : m.settings.t = 0) :
    m.take price now hold = ({ m.calmed with baseline := some (filteredBaseline m.settings.k price b) }, false) := by
  simp only [Monitor.take, hbase, if_pos hoff]

/-- In CALM a deviation of T or more arms, or enters ACTIVE when n is below 2; a lower one leaves CALM (R60). -/
theorem Monitor.take_calm (hbase : m.baseline = some b) (hon : 1 ≤ m.settings.t) (hstate : m.state = .calm) :
    m.take price now hold =
      if deviation price b < m.settings.t then
        ({ m with count := 0, baseline := some (filteredBaseline m.settings.k price b) }, false)
      else if 2 ≤ m.settings.n then
        ({ m with state := .arming, count := 1, baseline := some (filteredBaseline m.settings.k price b) }, false)
      else (m.entered (monitorDifference price b) now hold, true) := by
  simp only [Monitor.take, hbase, hstate, if_neg (Nat.ne_of_gt hon)]

/-- In ARMING a deviation of T or more counts, and the n-th enters ACTIVE; a lower one ends the arming (R61). -/
theorem Monitor.take_arming (hbase : m.baseline = some b) (hon : 1 ≤ m.settings.t) (hstate : m.state = .arming) :
    m.take price now hold =
      if deviation price b < m.settings.t then
        ({ m with state := .calm, count := 0, baseline := some (filteredBaseline m.settings.k price b) }, false)
      else if m.count + 1 = m.settings.n then (m.entered (monitorDifference price b) now hold, true)
      else ({ m with count := m.count + 1, baseline := some (filteredBaseline m.settings.k price b) }, false) := by
  simp only [Monitor.take, hbase, hstate, if_neg (Nat.ne_of_gt hon)]

/-- In ACTIVE a deviation below T − H begins the release, or ends the move when n is below 2, the baseline frozen (R62). -/
theorem Monitor.take_active (hbase : m.baseline = some b) (hon : 1 ≤ m.settings.t) (hstate : m.state = .active) :
    m.take price now hold =
      if m.settings.t - m.settings.h ≤ deviation price b then ({ m with count := 0 }, false)
      else if 2 ≤ m.settings.n then ({ m with state := .releasing, count := 1 }, false)
      else (m.calmed, false) := by
  simp only [Monitor.take, hbase, hstate, if_neg (Nat.ne_of_gt hon)]

/-- In RELEASING a deviation below T − H counts, and the n-th ends the move; a higher one returns to ACTIVE, the baseline
frozen (R63). -/
theorem Monitor.take_releasing (hbase : m.baseline = some b) (hon : 1 ≤ m.settings.t) (hstate : m.state = .releasing) :
    m.take price now hold =
      if m.settings.t - m.settings.h ≤ deviation price b then ({ m with state := .active, count := 0 }, false)
      else if m.count + 1 = m.settings.n then (m.calmed, false)
      else ({ m with count := m.count + 1 }, false) := by
  simp only [Monitor.take, hbase, hstate, if_neg (Nat.ne_of_gt hon)]

end

/-! ### The obligation -/

/-- Settles O36: each row of Table 3-2 is a branch of the equation for its state, chosen by the deviation and then by n. -/
theorem monitorFollowsTable : Obligations.MonitorFollowsTable := by
  refine ⟨?present, fun m price hold now hbase => Monitor.take_unset price hold now hbase⟩
  case present =>
    intro m price b hold now hbase _ difference dev moved calm active after
    have hmoved : moved = some (filteredBaseline m.settings.k price b) :=
      congrArg some (filteredBaseline_eq m.settings.k price b).symm
    rw [hmoved]
    refine ⟨fun hoff => Monitor.take_off price hold now hbase hoff, ?calm, ?arming, ?active, ?releasing⟩
    case calm =>
      intro hon hstate
      have htake := Monitor.take_calm price hold now hbase hon hstate
      exact ⟨fun hlow => htake.trans (if_pos hlow),
        fun hhigh hn => htake.trans ((if_neg (Nat.not_lt.2 hhigh)).trans (if_pos hn)),
        fun hhigh hn => htake.trans ((if_neg (Nat.not_lt.2 hhigh)).trans (if_neg (by omega)))⟩
    case arming =>
      intro hon hstate
      have htake := Monitor.take_arming price hold now hbase hon hstate
      exact ⟨fun hlow => htake.trans (if_pos hlow),
        fun hhigh hn => htake.trans ((if_neg (Nat.not_lt.2 hhigh)).trans (if_neg hn)),
        fun hhigh hn => htake.trans ((if_neg (Nat.not_lt.2 hhigh)).trans (if_pos hn))⟩
    case active =>
      intro hon hstate
      have htake := Monitor.take_active price hold now hbase hon hstate
      exact ⟨fun hhigh => htake.trans (if_pos hhigh),
        fun hlow hn => htake.trans ((if_neg (Nat.not_le.2 hlow)).trans (if_pos hn)),
        fun hlow hn => htake.trans ((if_neg (Nat.not_le.2 hlow)).trans (if_neg (by omega)))⟩
    case releasing =>
      intro hon hstate
      have htake := Monitor.take_releasing price hold now hbase hon hstate
      exact ⟨fun hhigh => htake.trans (if_pos hhigh),
        fun hlow hn => htake.trans ((if_neg (Nat.not_le.2 hlow)).trans (if_neg hn)),
        fun hlow hn => htake.trans ((if_neg (Nat.not_le.2 hlow)).trans (if_pos hn))⟩

end Sys2Proof.Machine
end

section
/-! PROOF. The price boards: what a cell's update shows of its record (R26, R99, R100), and PAUSE BOARD (R112). -/

namespace Sys2Proof.Machine

/-! ### Which update a cell gets -/

/-- A cell that the map does not name is blank (R99). -/
theorem State.cellUpdate_unassigned {s : State} {c : Nat} (hcell : tableGet s.board.cellMap c = none) :
    s.cellUpdate c = blankUpdate c := by
  simp only [State.cellUpdate, State.cellRecord, hcell, Option.bind_none]

/-- A cell that names an occupied record is rendered from it (R99). -/
theorem State.cellUpdate_assigned {s : State} {c r : Nat} {q : QuoteRecord} (hcell : tableGet s.board.cellMap c = some r)
    (hrecord : s.record? r = some q) : s.cellUpdate c = recordUpdate c s.stale q := by
  simp only [State.cellUpdate, State.cellRecord, hcell, Option.bind_some, hrecord]

/-! ### The price and the change of a cell -/

section
variable {q : QuoteRecord} {last close : Nat} {time : FloorTime}

/-- No last, no price (R99). -/
theorem cellPrice_of_no_last (hlast : q.last = none) : cellPrice q = .empty := by
  simp only [cellPrice, hlast]

/-- A price is dashes above 9,999 dollars shown, and its text otherwise (R26, R99). -/
theorem cellPrice_of_last (hlast : q.last = some (last, time)) :
    cellPrice q = if 9999 < roundToGrid q.grid last / 64 then .dashes [] else .shown (priceText q.grid last) := by
  simp only [cellPrice, hlast]

/-- The net change needs a last (R25). -/
theorem netChange_of_no_last (hlast : q.last = none) : netChange q = none := by
  simp only [netChange, hlast]

/-- The net change needs a previous close (R25). -/
theorem netChange_of_no_close (hclose : q.prevClose = none) : netChange q = none := by
  cases hlast : q.last <;> simp only [netChange, hlast, hclose]

/-- The net change is last less previous close (R25). -/
theorem netChange_of_both (hlast : q.last = some (last, time)) (hclose : q.prevClose = some close) :
    netChange q = some ((last : Int) - (close : Int)) := by
  simp only [netChange, hlast, hclose]

/-- No net change, no change field (R99). -/
theorem cellChange_of_none (hchange : netChange q = none) : cellChange q = .empty := by
  simp only [cellChange, hchange]

/-- A change is its sign and dashes above 999 dollars shown, and its text otherwise (R26, R99). -/
theorem cellChange_of_some {change : Int} (hchange : netChange q = some change) :
    cellChange q = if 999 < roundToGrid q.grid change.natAbs / 64 then .dashes (signText change)
      else .shown (changeText q.grid change) := by
  simp only [cellChange, hchange]

end

/-! ### The attributes' conditions -/

/-- A field that shows dashes is dashes after some sign (R26). -/
theorem CellField.isDashes_iff (field : CellField) : field.isDashes = true ↔ ∃ sign, field = .dashes sign := by
  cases field <;> simp [CellField.isDashes]

/-- A monitor shows FAST in ACTIVE and in RELEASING (R100). -/
theorem Monitor.moving_iff (m : Monitor) : m.moving = true ↔ m.state = .active ∨ m.state = .releasing := by
  simp only [Monitor.moving, Bool.or_eq_true, decide_eq_true_eq]

/-- Cells are STALE while the feed is LOST (R100). -/
theorem State.stale_iff (s : State) : s.stale = true ↔ s.feed.feed = .lost := decide_eq_true_iff

/-- OVER stands for a price or a change that shows dashes (R100). -/
theorem recordUpdate_overflow_iff (c : Nat) (stale : Bool) (q : QuoteRecord) :
    (recordUpdate c stale q).attributes.overflow = true ↔
      (∃ sign, cellPrice q = .dashes sign) ∨ (∃ sign, cellChange q = .dashes sign) := by
  simp only [recordUpdate, Bool.or_eq_true, CellField.isDashes_iff]

/-! ### PAUSE BOARD by the pause state -/

/-- The pause state after PAUSE BOARD: the block in flight, if there is one, is waited for (R112). -/
def Board.pauseAsked (b : Board) : PauseState :=
  match b.pause, b.block with
  | .running, some _ => .pausing
  | .running, none => .paused
  | kept, _ => kept

/-- PAUSE BOARD changes the pause state alone and answers with it as it then stands (R112). -/
theorem dealPauseBoard_eq (route : Route) (s : State) :
    dealPauseBoard route s =
      State.answer { s with board := { s.board with pause := s.board.pauseAsked } } route 14 .done
        (.pauseState s.board.pauseAsked) := by
  have hpause : s.board.pauseAsked =
      if s.board.pause = .running then (if s.board.block.isSome then .pausing else .paused) else s.board.pause := by
    cases hstate : s.board.pause with
    | running => cases hblock : s.board.block <;> simp [Board.pauseAsked, hstate, hblock]
    | pausing => simp [Board.pauseAsked, hstate]
    | paused => simp [Board.pauseAsked, hstate]
  rw [hpause]
  rfl

/-- PAUSE BOARD's row deals with it by its address and places its reply (R112, R167). -/
theorem pauseBoard_answersAs (s : State) :
    s.answersAs Instr.pauseBoard 14 .done (.pauseState s.board.pauseAsked)
      { s with board := { s.board with pause := s.board.pauseAsked } } :=
  State.answersAs_of dealPauseBoard (fun _ => rfl) (dealPauseBoard_eq .broadcast s)
    ((dealPauseBoard_eq .place s.reservePlace).trans
      (State.answer_place { s with board := { s.board with pause := s.board.pauseAsked } } 14 .done _))

/-! ### The obligations -/

/-- Settles O43: a blank update or the record's, each field of which is read off the lemma for it. -/
theorem cellUpdateShowsRecord : Obligations.CellUpdateShowsRecord := by
  intro c r q s
  refine ⟨State.cellUpdate_unassigned, ?assigned⟩
  case assigned =>
    intro hcell hrecord u
    have hu : u = recordUpdate c s.stale q := State.cellUpdate_assigned hcell hrecord
    rw [hu]
    refine ⟨rfl, rfl, rfl, rfl, ?noLast, ?noClose, ?shown, Option.isNone_iff_eq_none, Option.isSome_iff_ne_none,
      Monitor.moving_iff q.monitor, State.stale_iff s, recordUpdate_overflow_iff c s.stale q⟩
    case noLast =>
      exact fun hlast => ⟨cellPrice_of_no_last hlast, cellChange_of_none (netChange_of_no_last hlast)⟩
    case noClose =>
      exact fun hclose => cellChange_of_none (netChange_of_no_close hclose)
    case shown =>
      intro last time hlast p'
      have hprice := cellPrice_of_last hlast
      refine ⟨fun hlow => hprice.trans (if_neg (Nat.not_lt.2 hlow)), fun hhigh => hprice.trans (if_pos hhigh), ?change⟩
      intro close hclose change m'
      have hchange := cellChange_of_some (netChange_of_both hlast hclose)
      exact ⟨fun hlow => hchange.trans (if_neg (Nat.not_lt.2 hlow)), fun hhigh => hchange.trans (if_pos hhigh)⟩

/-- Settles O21: `pauseBoard_answersAs`, addressed and broadcast. -/
theorem pauseBoardWaitsForBlock : Obligations.PauseBoardWaitsForBlock := by
  intro addr s pause paused
  obtain ⟨htaken, hbroadcast⟩ := pauseBoard_answersAs s
  exact ⟨htaken addr, hbroadcast⟩

end Sys2Proof.Machine
end

section
/-! PROOF. The claim round: who claims, which claimant is selected, and what the selection leaves (R125 to R127). -/

namespace Sys2Proof.Machine

/-! ### The claimants (R125) -/

/-- A station claims in a round: it answered, and it is not DETACHED (R125). -/
def Desk.claims (d : Desk) (n : Nat) (st : Station) : Prop :=
  d.stations[n]? = some st ∧ n ∈ d.answered ∧ st.presence ≠ .detached

theorem Desk.isClaimant_eq_true_iff (d : Desk) (n : Nat) : d.isClaimant n = true ↔ ∃ st, d.claims n st := by
  unfold Desk.isClaimant Desk.claims
  cases d.stations[n]? <;> simp

/-- A station on the desk is a claimant by its answer and its own presence (R125). -/
theorem Desk.isClaimant_of_get {d : Desk} {n : Nat} {st : Station} (hst : d.stations[n]? = some st) :
    d.isClaimant n = true ↔ n ∈ d.answered ∧ st.presence ≠ .detached := by
  simp [Desk.isClaimant_eq_true_iff, Desk.claims, hst]

theorem Desk.isServed_of_claims {d : Desk} {n : Nat} {st : Station} (h : d.claims n st) : d.isServed n = st.served := by
  simp only [Desk.isServed, h.1]

section
variable {d : Desk}

theorem Desk.mem_claimants (h16 : d.stations.length = 16) (n : Nat) : n ∈ d.claimants ↔ ∃ st, d.claims n st := by
  simp only [Desk.claimants, List.mem_reverse, List.mem_filter, List.mem_range, Desk.isClaimant_eq_true_iff,
    and_iff_right_iff_imp]
  rintro ⟨st, hst, -, -⟩
  exact h16 ▸ (List.getElem?_eq_some_iff.1 hst).1

theorem Desk.claimants_eq_nil (hnone : ∀ m x, ¬ d.claims m x) : d.claimants = [] := by
  have hfilter : (List.range 16).filter d.isClaimant = [] :=
    List.filter_eq_nil_iff.2 fun m _ hm =>
      let ⟨x, hx⟩ := (d.isClaimant_eq_true_iff m).1 hm
      hnone m x hx
  rw [Desk.claimants, hfilter, List.reverse_nil]

/-- The claimants stand from the highest number down. -/
theorem Desk.claimants_descending (d : Desk) : d.claimants.Pairwise (· > ·) :=
  List.pairwise_reverse.2 (List.pairwise_lt_range.filter _)

end

/-- A list that descends begins with the highest of its numbers. -/
theorem head_of_descending {l : List Nat} {n : Nat} (hl : l.Pairwise (· > ·)) (hn : n ∈ l) (hmax : ∀ m ∈ l, m ≤ n) :
    ∃ rest, l = n :: rest := by
  cases l with
  | nil => cases hn
  | cons m rest =>
    have hbelow := (List.pairwise_cons.1 hl).1
    rcases List.mem_cons.1 hn with rfl | hrest
    · exact ⟨rest, rfl⟩
    · exact absurd (hbelow n hrest) (Nat.not_lt.2 (hmax m List.mem_cons_self))

/-! ### The end of a round (R126) -/

section
variable {s : State} {n : Nat} {st : Station}

/-- A round that no station claims in is void (R126). -/
theorem claimRound_void (hline : s.desk.line = .claim) (hnone : ∀ m x, ¬ s.desk.claims m x) :
    execClaimRoundCompletion s = .next s.freeLine := by
  simp only [execClaimRoundCompletion, hline, Desk.claimants_eq_nil hnone, ne_eq, not_true_eq_false, if_false]

/-- The highest claimant without a served mark is selected, the marks kept (R126). -/
theorem claimRound_unserved (h16 : s.desk.stations.length = 16) (hline : s.desk.line = .claim) (hclaims : s.desk.claims n st)
    (hunserved : st.served = false) (habove : ∀ m x, s.desk.claims m x → n < m → x.served = true) :
    execClaimRoundCompletion s = .next (s.select n false) := by
  have hmem : n ∈ s.desk.claimants := (Desk.mem_claimants h16 n).2 ⟨st, hclaims⟩
  have hmax : ∀ m ∈ s.desk.claimants.filter fun n => !s.desk.isServed n, m ≤ n := by
    intro m hm
    obtain ⟨hm, hmark⟩ := List.mem_filter.1 hm
    obtain ⟨x, hx⟩ := (Desk.mem_claimants h16 m).1 hm
    by_contra hlt
    simp [Desk.isServed_of_claims hx, habove m x hx (Nat.not_le.1 hlt)] at hmark
  obtain ⟨rest, hselected⟩ := head_of_descending (s.desk.claimants_descending.filter _)
    (List.mem_filter.2 ⟨hmem, by simp [Desk.isServed_of_claims hclaims, hunserved]⟩) hmax
  obtain ⟨first, others, hclaimants⟩ := List.exists_cons_of_ne_nil (List.ne_nil_of_mem hmem)
  rw [hclaimants] at hselected
  simp only [execClaimRoundCompletion, hline, hclaimants, hselected, ne_eq, not_true_eq_false, if_false]

/-- Where every claimant has its mark the marks are cleared and the highest is selected (R126). -/
theorem claimRound_allServed (h16 : s.desk.stations.length = 16) (hline : s.desk.line = .claim)
    (hclaims : s.desk.claims n st) (hall : ∀ m x, s.desk.claims m x → x.served = true ∧ m ≤ n) :
    execClaimRoundCompletion s = .next (s.select n true) := by
  have hnone : s.desk.claimants.filter (fun n => !s.desk.isServed n) = [] := by
    refine List.filter_eq_nil_iff.2 fun m hm => ?_
    obtain ⟨x, hx⟩ := (Desk.mem_claimants h16 m).1 hm
    simp [Desk.isServed_of_claims hx, (hall m x hx).1]
  have hmax : ∀ m ∈ s.desk.claimants, m ≤ n := by
    intro m hm
    obtain ⟨x, hx⟩ := (Desk.mem_claimants h16 m).1 hm
    exact (hall m x hx).2
  obtain ⟨rest, hclaimants⟩ :=
    head_of_descending s.desk.claimants_descending ((Desk.mem_claimants h16 n).2 ⟨st, hclaims⟩) hmax
  rw [hclaimants] at hnone
  simp only [execClaimRoundCompletion, hline, hclaimants, hnone, ne_eq, not_true_eq_false, if_false]

/-- Either way the round selects the claimant, and its own mark says whether all the marks are cleared (R126). -/
theorem claimRound_selects (h16 : s.desk.stations.length = 16) (hline : s.desk.line = .claim) (hclaims : s.desk.claims n st)
    (hselect : (st.served = false ∧ ∀ m x, s.desk.claims m x → n < m → x.served = true) ∨
      (∀ m x, s.desk.claims m x → x.served = true ∧ m ≤ n)) :
    execClaimRoundCompletion s = .next (s.select n st.served) := by
  rcases hselect with ⟨hunserved, habove⟩ | hall
  · rw [hunserved]
    exact claimRound_unserved h16 hline hclaims hunserved habove
  · rw [(hall n st hclaims).1]
    exact claimRound_allServed h16 hline hclaims hall

/-- A station after the selection: ABSENT claimants ATTACHED with run 0, and the served marks (R125, R126). -/
theorem Desk.roundMarked_get {d : Desk} {m : Nat} {x : Station} (hx : d.stations[m]? = some x) (selected : Nat)
    (clearAll : Bool) :
    (d.roundMarked selected clearAll)[m]? = some { x with
      presence := if m ∈ d.answered ∧ x.presence = .absent then .attached else x.presence
      failedRun := if m ∈ d.answered ∧ x.presence = .absent then 0 else x.failedRun
      served := if m = selected then true else if clearAll then false else x.served } := by
  have hclaimant := Desk.isClaimant_of_get hx
  simp only [Desk.roundMarked, List.getElem?_mapIdx, hx, Option.map_some, hclaimant, Station.returned]
  by_cases hans : m ∈ d.answered <;> by_cases habs : x.presence = .absent <;> simp [hans, habs]

end

/-! ### Answers to CLAIM and to SELECT (R125, R127) -/

section
variable {s : State} {n : Nat} {st : Station} {u : Transaction}

/-- A station's first answer in its slot makes it a claimant, unless it is DETACHED (R125). -/
theorem execSlotAnswer_claims (hline : s.desk.line = .claim) (hst : s.desk.stations[n]? = some st)
    (hpresence : st.presence ≠ .detached) (hnew : n ∉ s.desk.answered) :
    execSlotAnswer n s = .next { s with desk := { s.desk with answered := s.desk.answered ++ [n] } } := by
  simp only [execSlotAnswer, if_pos hline, hst, if_neg (not_or.2 ⟨hpresence, hnew⟩)]

/-- A DETACHED station's answer is ignored (R125). -/
theorem execSlotAnswer_detached (hline : s.desk.line = .claim) (hst : s.desk.stations[n]? = some st)
    (hpresence : st.presence = .detached) : execSlotAnswer n s = .next s := by
  simp only [execSlotAnswer, if_pos hline, hst, if_pos (Or.inl hpresence)]

/-- In SELECTING only the selected station's answer counts, and only with DESK BUSY held (R127). -/
theorem execAnswer_selecting (hline : s.desk.line = .selecting) (hu : s.desk.transaction = some u) :
    execAnswer n s =
      if n = u.station ∧ s.desk.busy = true then
        .next { s with desk := { s.desk with
          line := .request, transaction := some { u with window := some s.requestWindowEnd } } }
      else .next s := by
  simp only [execAnswer, hu, if_pos hline]

end

/-! ### The obligation -/

/-- Settles O47: `claimRound_selects` and `Desk.roundMarked_get` for the selection, and a lemma for each answer. -/
theorem claimRoundSelectsHighestUnserved : Obligations.ClaimRoundSelectsHighestUnserved := by
  intro n st u s h16 d claims
  refine ⟨execSlotAnswer_claims, execSlotAnswer_detached, ?void, ?selected, ?answer⟩
  case void =>
    intro hline hnone
    exact (claimRound_void hline hnone).trans (congrArg _ s.freeLine_eq)
  case selected =>
    intro hline hclaims hselect
    exact ⟨s.select n st.served, claimRound_selects h16 hline hclaims hselect, rfl,
      fun m x hx => Desk.roundMarked_get hx n st.served⟩
  case answer =>
    intro hline hu
    have hanswer := execAnswer_selecting (n := n) hline hu
    refine ⟨fun hn hbusy => hanswer.trans (if_pos ⟨hn, hbusy⟩), fun hother => hanswer.trans (if_neg ?_)⟩
    rintro ⟨hn, hbusy⟩
    rcases hother with hne | hidle
    · exact hne hn
    · exact Bool.false_ne_true (hidle.symm.trans hbusy)

end Sys2Proof.Machine
end

section
/-! PROOF. SET PARAMETER of a level threshold: which pairs keep the six thresholds in order, and that both clamps leave such a
pair (R187). -/

namespace Sys2Proof.Machine

/-! ### SET PARAMETER stores what `Params.store` gives (R186) -/

/-- A parameter that is stored is answered with the body that goes with it; the check-failure limit apart, which is tested at
the setting (R168, R186). -/
theorem setParameter_answersAs {s : State} {ident value : Nat} {p : Params} {body : ReplyBody}
    (hstore : s.params.store ident value = some (p, body)) (hident : ident ≠ 2) :
    s.answersAs (fun addr => Instr.setParameter addr ident value) 13 .done body { s with params := p } := by
  have hdeal (route : Route) (t : State) (ht : t.params = s.params) :
      dealSetParameter ident value route t = State.answer { t with params := p } route 13 .done body := by
    simp only [dealSetParameter, ht, hstore, State.limitTested, if_neg hident]
  exact State.answersAs_of (dealSetParameter ident value) (fun _ => rfl) (hdeal .broadcast s rfl)
    ((hdeal .place s.reservePlace rfl).trans (State.answer_place { s with params := p } 13 .done body))

section
variable {p : Params} {k : Nat}

/-- Identifiers 7 to 9 name the three enter thresholds (R192). -/
theorem Params.store_enter (h1 : 1 ≤ k) (h3 : k ≤ 3) (value : Nat) :
    p.store (6 + k) value = p.storeEnter (6 + k) k value := by
  obtain rfl | rfl | rfl : k = 1 ∨ k = 2 ∨ k = 3 := by omega
  all_goals rfl

/-- Identifiers 10 to 12 name the three leave thresholds (R192). -/
theorem Params.store_leave (h1 : 1 ≤ k) (h3 : k ≤ 3) (value : Nat) :
    p.store (9 + k) value = p.storeLeave (9 + k) k value := by
  obtain rfl | rfl | rfl : k = 1 ∨ k = 2 ∨ k = 3 := by omega
  all_goals rfl

/-- A level reads back as the pair stored for it. -/
@[simp] theorem Params.level_setLevel (p : Params) (k : Nat) (l : LevelPair) : (p.setLevel k l).level k = l := by
  unfold Params.setLevel
  split <;> simp_all [Params.level]

/-! ### The pairs that keep the order (R187) -/

/-- A pair stands in order at a level: its enter between the enters of the level's neighbours, its leave below its enter
(R187). -/
structure Params.Fits (p : Params) (k : Nat) (l : LevelPair) : Prop where
  two_le_enter : 2 ≤ l.enter
  below_le_enter : p.enterBelow k ≤ l.enter
  enter_le_above : l.enter ≤ p.enterAbove k
  one_le_leave : 1 ≤ l.leave
  leave_lt_enter : l.leave < l.enter

/-- Each level of an ordered six fits where it stands. -/
theorem Params.fits_level (ho : p.ordered) (k : Nat) : p.Fits k (p.level k) := by
  obtain ⟨h2, h12, h23, h3, hl1, hle1, hl2, hle2, hl3, hle3⟩ := ho
  unfold Params.level
  split
  case h_1 => exact ⟨h2, Nat.zero_le _, h12, hl1, hle1⟩
  case h_2 => exact ⟨h2.trans h12, h12, h23, hl2, hle2⟩
  case h_3 =>
    have hbelow : p.enterBelow k = p.enter2 := by simp only [Params.enterBelow]
    have habove : p.enterAbove k = 3600 := by simp only [Params.enterAbove]
    exact ⟨(h2.trans h12).trans h23, hbelow ▸ h23, habove ▸ h3, hl3, hle3⟩

/-- Storing a pair that fits keeps the six in order. -/
theorem Params.ordered_setLevel (ho : p.ordered) {l : LevelPair} (hl : p.Fits k l) : (p.setLevel k l).ordered := by
  obtain ⟨h2, h12, h23, h3, hl1, hle1, hl2, hle2, hl3, hle3⟩ := ho
  obtain ⟨htwo, hbelow, habove, hone, hlt⟩ := hl
  unfold Params.setLevel
  split
  case h_1 => exact ⟨htwo, habove, h23, h3, hone, hlt, hl2, hle2, hl3, hle3⟩
  case h_2 => exact ⟨h2, hbelow, habove, h3, hl1, hle1, hone, hlt, hl3, hle3⟩
  case h_3 =>
    simp only [Params.enterBelow, Params.enterAbove] at hbelow habove
    exact ⟨h2, h12, hbelow, habove, hl1, hle1, hl2, hle2, hone, hlt⟩

/-- A leave lowered when it is at or above its enter lies beneath it, and is at least 1 under an enter of 2 or more (R187). -/
theorem lowered_leave_spec {enter leave : Nat} (henter : 2 ≤ enter) (hleave : 1 ≤ leave) :
    1 ≤ (if enter ≤ leave then enter - 1 else leave) ∧ (if enter ≤ leave then enter - 1 else leave) < enter := by
  split <;> omega

/-- A new enter, clamped between its neighbours, fits with its leave lowered beneath it. -/
theorem Params.Fits.setEnter {l : LevelPair} (hl : p.Fits k l) (value : Nat) :
    p.Fits k (l.setEnter (p.enterBelow k) (p.enterAbove k) value) := by
  have htwo : 2 ≤ min (p.enterAbove k) (max (p.enterBelow k) (clamp 2 3600 value)) :=
    le_min (hl.two_le_enter.trans hl.enter_le_above) (le_max_of_le_right (le_min (by omega) (le_max_left 2 value)))
  obtain ⟨hone, hlt⟩ := lowered_leave_spec htwo hl.one_le_leave
  exact ⟨htwo, le_min (hl.below_le_enter.trans hl.enter_le_above) (le_max_left _ _), min_le_left _ _, hone, hlt⟩

/-- A new leave fits beneath its enter, which stays as it stands. -/
theorem Params.Fits.setLeave {l : LevelPair} (hl : p.Fits k l) (value : Nat) : p.Fits k (l.setLeave value) := by
  have hclamped : 1 ≤ clamp 1 3600 value := le_min (by omega) (le_max_left 1 value)
  obtain ⟨hone, hlt⟩ := lowered_leave_spec hl.two_le_enter hclamped
  exact ⟨hl.two_le_enter, hl.below_le_enter, hl.enter_le_above, hone, hlt⟩

/-- The clamp of an enter between its neighbours as R187 says it: to 2 to 3,600, then raised to the enter of the level below
for levels 2 and 3, then lowered to the enter of the level above for levels 1 and 2. -/
theorem Params.setEnter_enter (ho : p.ordered) (h1 : 1 ≤ k) (h3 : k ≤ 3) (l : LevelPair) (value : Nat) :
    let raised :=
      if k = 1 then min 3600 (max 2 value) else max (p.level (k - 1)).enter (min 3600 (max 2 value))
    (l.setEnter (p.enterBelow k) (p.enterAbove k) value).enter =
      if k = 3 then raised else min (p.level (k + 1)).enter raised := by
  obtain rfl | rfl | rfl : k = 1 ∨ k = 2 ∨ k = 3 := by omega
  · exact congrArg (min p.enter2) (Nat.zero_max _)
  · rfl
  · obtain ⟨_, _, h23, htop, _⟩ := ho
    exact min_eq_right (max_le (h23.trans htop) (min_le_left _ _))

end

/-! ### The obligation -/

/-- Settles O20: both clamps leave a pair that fits its level (`Params.Fits.setEnter`, `Params.Fits.setLeave`), and storing
such a pair keeps the order (`Params.ordered_setLevel`). -/
theorem levelThresholdsStayInOrder : Obligations.LevelThresholdsStayInOrder := by
  refine ⟨by unfold Params.ordered; decide, ?settings⟩
  case settings =>
    intro k v s ho h1 h3 old raised enter leave entered left
    have hfits : s.params.Fits k old := Params.fits_level ho k
    have henter : (old.setEnter (s.params.enterBelow k) (s.params.enterAbove k) v).enter = enter :=
      Params.setEnter_enter ho h1 h3 old v
    have hentered : entered =
        s.params.setLevel k (old.setEnter (s.params.enterBelow k) (s.params.enterAbove k) v) := by
      simp only [entered, ← henter]
      rfl
    have hleft : left = s.params.setLevel k (old.setLeave v) := rfl
    rw [hentered, hleft, Params.level_setLevel, Params.level_setLevel]
    exact ⟨setParameter_answersAs (Params.store_enter h1 h3 v) (by omega),
      setParameter_answersAs (Params.store_leave h1 h3 v) (by omega),
      Params.ordered_setLevel ho (hfits.setEnter v), Params.ordered_setLevel ho (hfits.setLeave v)⟩

end Sys2Proof.Machine
end


section
/-! PROOF. What a change of the state keeps: the laws of O56 to O60 as one relation between a state and the next, with one
rule for each block that can change alone. -/

namespace Sys2Proof.Machine

/-! ### The laws as a relation -/

/-- Every watch list is one of at most 12 entries (R143). -/
def Desk.listsShort (d : Desk) : Prop := ∀ st ∈ d.stations, st.watch.length ≤ 12

/-- A change of the state keeps every law that the step invariants state, each from the laws that it rests on. -/
structure Keeps (s t : State) : Prop where
  references : s.referencesAgree → t.referencesAgree
  records : s.recordsLawful → t.recordsLawful
  tapes : s.tapesLawful → t.tapesLawful
  board : s.board.lawful → t.board.lawful
  ordered : s.params.ordered → t.params.ordered
  ranged : s.params.ranged → t.params.ranged
  counters : s.counters.counted → t.counters.counted
  stationCounts : s.desk.countersCounted → t.desk.countersCounted
  lists : s.desk.listsShort → t.desk.listsShort
  desk : s.desk.stationsLawful → s.desk.lineLawful → t.desk.stationsLawful ∧ t.desk.lineLawful
  pages : s.desk.listsShort → s.recordsLawful → s.desk.pagesBounded → t.desk.pagesBounded
  feed : s.recordsLawful → s.board.lawful → s.feed.lawful → t.feed.lawful
  places : s.placesSound → t.placesSound
  intake : s.intakeSound → t.intakeSound

theorem Keeps.refl (s : State) : Keeps s s :=
  ⟨id, id, id, id, id, id, id, id, id, fun hs hl => ⟨hs, hl⟩, fun _ _ hp => hp, fun _ _ hf => hf, id, id⟩

theorem Keeps.trans {s t u : State} (h : Keeps s t) (k : Keeps t u) : Keeps s u where
  references := k.references ∘ h.references
  records := k.records ∘ h.records
  tapes := k.tapes ∘ h.tapes
  board := k.board ∘ h.board
  ordered := k.ordered ∘ h.ordered
  ranged := k.ranged ∘ h.ranged
  counters := k.counters ∘ h.counters
  stationCounts := k.stationCounts ∘ h.stationCounts
  lists := k.lists ∘ h.lists
  desk hs hl := k.desk (h.desk hs hl).1 (h.desk hs hl).2
  pages hl hr hp := k.pages (h.lists hl) (h.records hr) (h.pages hl hr hp)
  feed hr hb hf := k.feed (h.records hr) (h.board hb) (h.feed hr hb hf)
  places := k.places ∘ h.places
  intake := k.intake ∘ h.intake

/-- The references law speaks of the directory, the records, the cell map and the watch entries alone. -/
theorem State.referencesAgree_congr {s t : State} (hd : t.directory = s.directory)
    (hr : t.store.records = s.store.records) (hc : t.board.cellMap = s.board.cellMap)
    (hw : s.referencesAgree → t.entriesWatchRecords) (h : s.referencesAgree) : t.referencesAgree := by
  have hwatch := hw h
  obtain ⟨h1, h2, h3, h4, h5, h6, h7, h8, -, h10⟩ := h
  have hrec : t.record? = s.record? := by funext r; simp only [State.record?, hr]
  refine ⟨hd ▸ h1, hd ▸ h2, ?_, ?_, ?_, hd ▸ h6, ?_, ?_, hwatch, ?_⟩
  · simpa only [State.recordsTabled, hr] using h3
  · simpa only [State.entriesNameRecords, hd, hrec] using h4
  · simpa only [State.recordsHavePrimary, hd, hr] using h5
  · simpa only [State.cellsNameRecords, hc, hrec] using h7
  · simpa only [State.recordsOwnCells, hc, hr] using h8
  · have hholds : State.operationStands.holds t = State.operationStands.holds s := by
      funext work
      cases work <;> simp only [State.operationStands.holds, hd, hrec]
    simpa only [State.operationStands, hd, hholds] using h10

/-! ### One block changed -/

section
variable {s : State}

/-- The unit manager, the clock and the waiting commands are in no law. -/
theorem Keeps.ofManager (s : State) (clock : Reading) (manager : UnitManager) (pending : List Instr) :
    Keeps s { s with clock := clock, manager := manager, pending := pending } :=
  ⟨fun h => h, fun h => h, fun h => h, fun h => h, fun h => h, fun h => h, fun h => h, fun h => h, fun h => h,
    fun hs hl => ⟨hs, hl⟩, fun _ _ hp => hp, fun _ _ hf => hf, fun h => h, fun h => h⟩

theorem Keeps.ofParams {p : Params} (ho : s.params.ordered → p.ordered) (hr : s.params.ranged → p.ranged) :
    Keeps s { s with params := p } :=
  { Keeps.refl s with references := id, ordered := ho, ranged := hr }

theorem Keeps.ofCounters {c : Counters} (hc : s.counters.counted → c.counted) : Keeps s { s with counters := c } :=
  { Keeps.refl s with references := id, counters := hc }

theorem Keeps.ofTapes {a b : Tape} (ha : s.tapeA.lawful → a.lawful) (hb : s.tapeB.lawful → b.lawful) :
    Keeps s { s with tapeA := a, tapeB := b } :=
  { Keeps.refl s with references := id, tapes := fun h => ⟨ha h.1, hb h.2⟩ }

theorem Keeps.ofBoard {b : Board} (hb : s.board.lawful → b.lawful) (hm : b.cellMap = s.board.cellMap) :
    Keeps s { s with board := b } :=
  { Keeps.refl s with
    references := State.referencesAgree_congr rfl rfl hm fun h => h.2.2.2.2.2.2.2.2.1
    board := hb }

/-- The session, floor time and the walk are in no law. -/
theorem Keeps.ofStore {q : QuoteStore} (hr : q.records = s.store.records) : Keeps s { s with store := q } := by
  refine { Keeps.refl s with references := ?_, records := ?_, pages := ?_ }
  · exact State.referencesAgree_congr rfl hr rfl fun h st hst e he => by
      have hsome := h.2.2.2.2.2.2.2.2.1 st hst e he
      simpa only [State.record?, hr] using hsome
  · intro h
    exact ⟨fun e he => h.1 e (hr ▸ he), h.2⟩
  · exact fun _ _ hp => hp

/-- The repeater changed with its places as they were, or fewer filled. -/
theorem Keeps.ofFeed {f : Repeater} (hf : s.feed.lawful → f.lawful) (hr : f.reserved = s.feed.reserved)
    (ho : f.filledPlaces ≤ s.feed.filledPlaces) : Keeps s { s with feed := f } :=
  { Keeps.refl s with
    references := id
    feed := fun _ _ h => hf h
    places := fun h => by
      obtain ⟨hreserved, hfour⟩ := h
      refine ⟨hr.trans hreserved, ?_⟩
      simp only [Repeater.occupied] at hfour ⊢
      omega }

/-- Intake changed with no message newly marked. -/
theorem Keeps.ofIntake {i : Intake} (hl : s.intakeSound → i.queue.length ≤ 16)
    (he : s.intakeSound → ∀ e, i.expectation = some e → e ≤ 4095) (hs : s.intakeSound → ∀ m ∈ i.queue, m.sequence ≤ 4095)
    (hm : i.holdsMarked = true → s.intake.holdsMarked = true) : Keeps s { s with intake := i } :=
  { Keeps.refl s with
    references := id
    intake := fun h => ⟨hl h, he h, hs h, fun hh => h.2.2.2 (hm hh)⟩ }

end

/-! ### The desk changed -/

/-- A change of the desk line controller keeps the laws that speak of it. -/
structure DeskKeeps (s : State) (d : Desk) : Prop where
  watch : s.referencesAgree → ∀ st ∈ d.stations, ∀ e ∈ st.watch, (s.record? e.record).isSome = true
  counted : s.desk.countersCounted → d.countersCounted
  lists : s.desk.listsShort → d.listsShort
  laws : s.desk.stationsLawful → s.desk.lineLawful → d.stationsLawful ∧ d.lineLawful
  pages : s.desk.listsShort → s.recordsLawful → s.desk.pagesBounded → d.pagesBounded

theorem Keeps.ofDesk {s : State} {d : Desk} (h : DeskKeeps s d) : Keeps s { s with desk := d } :=
  { Keeps.refl s with
    references := State.referencesAgree_congr rfl rfl rfl h.watch
    stationCounts := h.counted
    lists := h.lists
    desk := h.laws
    pages := h.pages }

/-- The counters of a station are 16-bit counts (R119). -/
def Station.counted (st : Station) : Prop :=
  st.counters.windowTimeouts ≤ 65535 ∧ st.counters.checkErrors ≤ 65535 ∧ st.counters.lost ≤ 65535 ∧
    st.counters.phaseFaults ≤ 65535 ∧ st.counters.failedDeliveries ≤ 65535

/-- A change of one station record keeps its counts, a short list, and the records that its entries name. -/
structure StationFrame (s : State) (st st' : Station) : Prop where
  counted : st.counted → st'.counted
  short : st.watch.length ≤ 12 → st'.watch.length ≤ 12
  watch : ∀ e' ∈ st'.watch, (∃ e ∈ st.watch, e.record = e'.record) ∨
    (s.referencesAgree → (s.record? e'.record).isSome = true)

/-- A change of one station record keeps the laws that speak of it, its presence state and its run. -/
structure StationKeeps (s : State) (st st' : Station) : Prop extends StationFrame s st st' where
  lawful : st.lawful → st'.lawful
  presence : st'.presence = st.presence
  run : st'.failedRun = st.failedRun

/-- A station whose list names what it named, in a list no longer. -/
theorem StationFrame.of_watch {s : State} {st st' : Station} (hc : st.counted → st'.counted)
    (hl : st'.watch.length ≤ st.watch.length) (hw : ∀ e' ∈ st'.watch, ∃ e ∈ st.watch, e.record = e'.record) :
    StationFrame s st st' :=
  ⟨hc, hl.trans, fun e' he' => Or.inl (hw e' he')⟩

theorem StationFrame.refl (s : State) (st : Station) : StationFrame s st st :=
  .of_watch id le_rfl fun e he => ⟨e, he, rfl⟩

theorem StationKeeps.refl (s : State) (st : Station) : StationKeeps s st st :=
  { StationFrame.refl s st with lawful := id, presence := rfl, run := rfl }

theorem Desk.transactionSound_none {d : Desk} (h : d.transaction = none) :
    d.transactionSound ↔ restingLine d.line = true := by
  simp only [Desk.transactionSound, h]

theorem Desk.transactionSound_some {d : Desk} {t : Transaction} (h : d.transaction = some t) :
    d.transactionSound ↔ restingLine d.line = false ∧ d.isAttached t.station ∧
      ∀ causing, t.output = .suspending causing → d.slot = none ∧ causing ≠ t.station := by
  simp only [Desk.transactionSound, h]

theorem Desk.slotSound_none {d : Desk} (h : d.slot = none) : d.slotSound := by
  simp only [Desk.slotSound, h]

theorem Desk.slotSound_some {d : Desk} {p : SuspendedPage} (h : d.slot = some p) :
    d.slotSound ↔ d.isAttached p.station ∧ p.causing ≠ p.station ∧ d.line ≠ .claim ∧
      ∀ t, d.transaction = some t → t.station ≠ p.station := by
  simp only [Desk.slotSound, h]

/-- A station ATTACHED before is ATTACHED after where the change leaves it so. -/
theorem Desk.isAttached_of {d d' : Desk} {n : Nat}
    (h : ∀ st, d.stations[n]? = some st → ∃ st', d'.stations[n]? = some st' ∧ st'.presence = st.presence)
    (ha : d.isAttached n) : d'.isAttached n := by
  obtain ⟨st, hst, hp⟩ := ha
  obtain ⟨st', hst', hp'⟩ := h st hst
  exact ⟨st', hst', hp'.trans hp⟩

theorem Desk.isAttached_congr {d d' : Desk} (h : d'.stations = d.stations) (n : Nat) : d'.isAttached n ↔ d.isAttached n := by
  simp only [Desk.isAttached, h]

/-- Station records changed one by one, with what the change makes of the line. -/
theorem DeskKeeps.ofPointwise {s : State} {d : Desk} (hlen : d.stations.length = s.desk.stations.length)
    (h : ∀ (n : Nat) (st : Station), s.desk.stations[n]? = some st → ∃ st', d.stations[n]? = some st' ∧
      StationFrame s st st' ∧ (s.desk.stationsLawful → s.desk.lineLawful → st'.lawful ∧ st'.runAgrees))
    (hl : s.desk.stationsLawful → s.desk.lineLawful → d.transactionSound ∧ d.slotSound)
    (hp : s.desk.listsShort → s.recordsLawful → s.desk.pagesBounded → d.pagesBounded) : DeskKeeps s d := by
  have back : ∀ st' ∈ d.stations, ∃ st ∈ s.desk.stations,
      StationFrame s st st' ∧ (s.desk.stationsLawful → s.desk.lineLawful → st'.lawful ∧ st'.runAgrees) := by
    intro st' hst'
    obtain ⟨n, hn, rfl⟩ := List.mem_iff_getElem.1 hst'
    have hget : s.desk.stations[n]? = some (s.desk.stations[n]'(hlen ▸ hn)) := List.getElem?_eq_getElem _
    obtain ⟨x, hx, hk⟩ := h n _ hget
    rw [List.getElem?_eq_getElem hn, Option.some.injEq] at hx
    exact ⟨_, List.getElem_mem _, hx ▸ hk⟩
  refine ⟨?watch, ?counted, ?lists, ?laws, hp⟩
  case watch =>
    intro hr st' hst' e he
    obtain ⟨st, hst, hk, -⟩ := back st' hst'
    rcases hk.watch e he with ⟨e0, he0, hrec⟩ | hsome
    · exact hrec ▸ hr.2.2.2.2.2.2.2.2.1 st hst e0 he0
    · exact hsome hr
  case counted =>
    intro hc st' hst'
    obtain ⟨st, hst, hk, -⟩ := back st' hst'
    exact hk.counted (hc st hst)
  case lists =>
    intro hshort st' hst'
    obtain ⟨st, hst, hk, -⟩ := back st' hst'
    exact hk.short (hshort st hst)
  case laws =>
    intro hs hline
    refine ⟨⟨hlen.trans hs.1, fun st' hst' => ?_⟩, fun st' hst' => ?_, hl hs hline⟩ <;>
      obtain ⟨st, -, -, hk⟩ := back st' hst'
    · exact (hk hs hline).1
    · exact (hk hs hline).2

/-- Station records changed with their presence states and runs kept, the line, transaction and slot as they stand. -/
theorem DeskKeeps.ofStations {s : State} {stations : List Station} (hlen : stations.length = s.desk.stations.length)
    (h : ∀ (n : Nat) (st : Station), s.desk.stations[n]? = some st → ∃ st', stations[n]? = some st' ∧ StationKeeps s st st') :
    DeskKeeps s { s.desk with stations := stations } := by
  have attached : ∀ n, s.desk.isAttached n → Desk.isAttached { s.desk with stations := stations } n := by
    intro n
    refine Desk.isAttached_of fun st hst => ?_
    obtain ⟨st', hst', hk⟩ := h n st hst
    exact ⟨st', hst', hk.presence⟩
  refine DeskKeeps.ofPointwise hlen (fun n st hst => ?_) (fun _ hline => ⟨?_, ?_⟩) (fun _ _ hp => hp)
  · obtain ⟨st', hst', hk⟩ := h n st hst
    have hmem := List.mem_of_getElem? hst
    refine ⟨st', hst', hk.toStationFrame, fun hs hline => ⟨hk.lawful (hs.2 st hmem), ?_⟩⟩
    simpa only [Station.runAgrees, hk.presence, hk.run] using hline.1 st hmem
  · cases ht : s.desk.transaction with
    | none =>
      exact (Desk.transactionSound_none (d := { s.desk with stations := stations }) ht).2
        ((Desk.transactionSound_none ht).1 hline.2.1)
    | some t =>
      obtain ⟨hrest, hattached, hsuspending⟩ := (Desk.transactionSound_some ht).1 hline.2.1
      exact (Desk.transactionSound_some (d := { s.desk with stations := stations }) ht).2
        ⟨hrest, attached _ hattached, hsuspending⟩
  · cases hp : s.desk.slot with
    | none => exact Desk.slotSound_none hp
    | some p =>
      obtain ⟨hattached, hrest⟩ := (Desk.slotSound_some hp).1 hline.2.2
      exact (Desk.slotSound_some (d := { s.desk with stations := stations }) hp).2
        ⟨attached _ hattached, hrest⟩

/-- One station record changed. -/
theorem DeskKeeps.ofModify {s : State} {n : Nat} {f : Station → Station}
    (h : ∀ st, s.desk.stations[n]? = some st → StationKeeps s st (f st)) : DeskKeeps s (s.desk.modifyStation n f) := by
  refine DeskKeeps.ofStations (Desk.modifyStation_length _ _ _) fun m st hst => ?_
  have hget := Desk.modifyStation_get s.desk n m f
  by_cases hm : m = n
  · subst hm
    exact ⟨f st, by simpa only [if_true, hst, Option.map_some, Desk.modifyStation] using hget, h st hst⟩
  · exact ⟨st, by simpa only [if_neg hm, hst, Desk.modifyStation] using hget, StationKeeps.refl s st⟩

/-- Every station record changed. -/
theorem DeskKeeps.ofMap {s : State} {f : Station → Station} (h : ∀ st, StationKeeps s st (f st)) :
    DeskKeeps s { s.desk with stations := s.desk.stations.map f } :=
  DeskKeeps.ofStations (List.length_map ..) fun n st hst => ⟨f st, by simp [hst], h st⟩

end Sys2Proof.Machine
end


section
/-! PROOF. Records: the ring and the monitor keep their laws whatever a message, a command or an expiry does to a record (R31,
R56), and a record changed in its fields keeps every law of the state. -/

namespace Sys2Proof.Machine

/-! ### The recent ring (R31) -/

theorem ringSound_filter {ring : List Print} (h : ringSound ring) (stays : Print → Bool) :
    ringSound (ring.filter stays) :=
  ⟨(List.length_filter_le _ _).trans h.1, h.2.sublist (List.filter_sublist.map _)⟩

theorem ringSound_nil : ringSound [] := ⟨Nat.zero_le _, List.nodup_nil⟩

/-- A print pushed replaces the print of its number, or the oldest of four (R31). -/
theorem pushRing_sound {ring : List Print} (h : ringSound ring) (p : Print) : ringSound (pushRing ring p) := by
  obtain ⟨hlen, hnodup⟩ := ringSound_filter h fun x => x.sequence != p.sequence
  have hother : p.sequence ∉ (ring.filter fun x => x.sequence != p.sequence).map Print.sequence := by simp
  have push : ∀ others : List Print, others.length ≤ 3 → (others.map Print.sequence).Nodup →
      p.sequence ∉ others.map Print.sequence → ringSound (others ++ [p]) := by
    intro others hl hn hp
    refine ⟨by simpa using Nat.lt_succ_of_le hl, ?_⟩
    rw [List.map_append, List.nodup_append]
    refine ⟨hn, List.nodup_singleton _, fun a ha b hb => ?_⟩
    obtain rfl : b = p.sequence := by simpa using hb
    exact fun hab => hp (hab ▸ ha)
  unfold pushRing
  simp only
  split
  · have hsub := (List.drop_sublist 1 (ring.filter fun x => x.sequence != p.sequence)).map Print.sequence
    exact push _ (by rw [List.length_drop]; omega) (hnodup.sublist hsub) fun hm => hother (hsub.subset hm)
  · exact push _ (by omega) hnodup hother

/-! ### The monitor (R56 to R66) -/

/-- Settings are stored in their ranges (R10). -/
theorem settingsRanged_clampSettings (m : MonSettings) : settingsRanged (clampSettings m) := by
  simp only [settingsRanged, clampSettings, clamp]
  omega

/-- A CALM monitor agrees whatever its baseline. -/
theorem Monitor.agrees_calm {settings : MonSettings} (h : settingsRanged settings) (baseline : Option Nat) :
    Monitor.agrees ⟨settings, .calm, 0, baseline, none, none⟩ := by
  refine ⟨h, ?_⟩
  simp [Monitor.moving]

theorem Monitor.calmed_agrees {m : Monitor} (h : settingsRanged m.settings) (baseline : Option Nat) :
    Monitor.agrees { m.calmed with baseline := baseline } :=
  Monitor.agrees_calm h baseline

/-- A monitor that a print brings into ACTIVE agrees (R64). -/
theorem Monitor.entered_agrees {m : Monitor} (h : m.agrees) (hb : m.baseline ≠ none) (difference : Int) (now : Reading)
    (moveHold : Nat) : (m.entered difference now moveHold).agrees := by
  refine ⟨h.1, ?_⟩
  simp [Monitor.entered, Monitor.moving, hb]

/-- A baseline given to a monitor that agrees leaves it agreeing. -/
theorem Monitor.agrees_baseline {m : Monitor} (h : m.agrees) {baseline : Option Nat}
    (hb : baseline = none → m.baseline = none) : Monitor.agrees { m with baseline := baseline } := by
  obtain ⟨hset, hzero, hcount, hdir, hhold, hnone⟩ := h
  exact ⟨hset, hzero, hcount, hdir, hhold, fun hh => hnone (hb hh)⟩

/-- A regular print keeps R56's agreement, row by row of Table 3-2. -/
theorem Monitor.take_agrees {m : Monitor} (h : m.agrees) (price : Nat) (now : Reading) (moveHold : Nat) :
    (m.take price now moveHold).1.agrees := by
  have hall := h
  obtain ⟨⟨ht, hh, hn1, hn15, hk⟩, hzero, hcount, hdir, hhold, hnone⟩ := h
  unfold Monitor.take
  cases hb : m.baseline with
  | none => exact Monitor.agrees_baseline hall fun hh => by cases hh
  | some b =>
    have hbase : m.baseline ≠ none := by simp [hb]
    simp only
    split
    · exact Monitor.calmed_agrees hall.1 _
    · split <;> rename_i hstate
      all_goals
        simp only [Monitor.moving, hstate, reduceCtorEq, decide_true, decide_false, Bool.or_self, Bool.or_false, Bool.or_true,
          Option.isSome_eq_false_iff, Option.isNone_iff_eq_none] at hdir hhold
      · split
        · exact ⟨hall.1, by simp [Monitor.moving, hstate, hdir, hhold]⟩
        · split
          · exact ⟨hall.1, by simp [Monitor.moving, hdir, hhold]; omega⟩
          · exact Monitor.entered_agrees hall hbase _ _ _
      · have hcounted := hcount (Or.inl hstate)
        split
        · exact ⟨hall.1, by simp [Monitor.moving, hdir, hhold]⟩
        · split
          · exact Monitor.entered_agrees hall hbase _ _ _
          · exact ⟨hall.1, by simp [Monitor.moving, hstate, hdir, hhold]; omega⟩
      · split
        · exact ⟨hall.1, by simp [Monitor.moving, hstate, hdir, hhold]⟩
        · split
          · exact ⟨hall.1, by simp [Monitor.moving, hdir, hhold]; omega⟩
          · exact Monitor.calmed_agrees hall.1 _
      · have hcounted := hcount (Or.inr hstate)
        split
        · exact ⟨hall.1, by simp [Monitor.moving, hdir, hhold]⟩
        · split
          · exact Monitor.calmed_agrees hall.1 _
          · exact ⟨hall.1, by simp [Monitor.moving, hstate, hdir, hhold]; omega⟩

/-- A settled baseline is absent only where the old one was. -/
theorem settledBaseline_none {last : Option (Nat × FloorTime)} {prevClose baseline : Option Nat}
    (h : settledBaseline last prevClose baseline = none) : baseline = none := by
  unfold settledBaseline at h
  split at h
  · cases h
  · cases h
  · exact h

/-! ### What a message or a command does to a record -/

theorem QuoteRecord.recentred_lawful {q : QuoteRecord} (h : q.lawful) : q.recentred.lawful :=
  ⟨h.1, Monitor.calmed_agrees h.2.1 _⟩

theorem QuoteRecord.regularPrint_lawful {q : QuoteRecord} (h : q.lawful) (p : Print) (floor : FloorTime) (now : Reading)
    (moveHold : Nat) : (q.regularPrint p floor now moveHold).1.lawful :=
  ⟨pushRing_sound h.1 p, Monitor.take_agrees h.2 _ _ _⟩

theorem QuoteRecord.sldPrint_lawful {q : QuoteRecord} (h : q.lawful) (p : Print) : (q.sldPrint p).lawful :=
  ⟨pushRing_sound h.1 _, h.2⟩

theorem QuoteRecord.cancelFound_lawful {q : QuoteRecord} (h : q.lawful) (p : Print) : (q.cancelFound p).lawful := by
  have hring : ringSound (withoutPrint q.ring p.sequence) := ringSound_filter h.1 _
  unfold QuoteRecord.cancelFound
  simp only
  split <;> exact ⟨hring, h.2⟩

theorem QuoteRecord.figures_lawful {q : QuoteRecord} (h : q.lawful) (prevClose : Nat) (opening high low volume : Option Nat) :
    (q.figures prevClose opening high low volume).lawful := by
  refine ⟨h.1, ?_⟩
  unfold QuoteRecord.figures
  simp only
  split
  · exact h.2
  · exact Monitor.agrees_baseline h.2 fun hh => by cases hh

theorem QuoteRecord.dayStarted_lawful {q : QuoteRecord} (h : q.lawful) : q.dayStarted.lawful :=
  ⟨ringSound_nil, Monitor.calmed_agrees h.2.1 _⟩

/-- A record made by a load whose settings are stored clamped keeps its laws (R11). -/
theorem loadedRecord_lawful {a : LoadArgs} (h : settingsRanged a.settings) : (loadedRecord a).lawful :=
  ⟨ringSound_nil, Monitor.agrees_calm h _⟩

/-! ### A record changed in its fields -/

section
variable {α : Type}

theorem mem_tableSet {table : List (Nat × α)} {key : Nat} {value : α} {e : Nat × α} (h : e ∈ tableSet table key value) :
    e = (key, value) ∨ e ∈ table := by
  induction table with
  | nil => simpa [tableSet] using h
  | cons x rest ih =>
    obtain ⟨k, v⟩ := x
    simp only [tableSet] at h
    split at h
    · simpa using h
    · split at h
      · rcases List.mem_cons.1 h with rfl | h
        · exact Or.inl rfl
        · exact Or.inr (List.mem_cons_of_mem _ h)
      · rcases List.mem_cons.1 h with rfl | h
        · exact Or.inr List.mem_cons_self
        · rcases ih h with h | h
          · exact Or.inl h
          · exact Or.inr (List.mem_cons_of_mem _ h)

end

section
variable {s : State} {r : Nat} {q q' : QuoteRecord}

/-- A record's fields changed leave the same records occupied. -/
theorem State.setRecord_occupied (h : s.record? r = some q) (q' : QuoteRecord) (n : Nat) :
    ((s.setRecord r q').record? n).isSome = (s.record? n).isSome := by
  rw [State.record?_setRecord]
  split
  · next hn => subst hn; simp [h]
  · rfl

theorem State.setRecord_references (h : s.record? r = some q) (hcode : q'.code = q.code) (hcells : q'.cells = q.cells)
    (hr : s.referencesAgree) : (s.setRecord r q').referencesAgree := by
  obtain ⟨h1, h2, h3, h4, h5, h6, h7, h8, h9, h10⟩ := hr
  have hmem : (r, q) ∈ s.store.records := mem_of_tableGet h
  have hoccupied := State.setRecord_occupied h q'
  refine ⟨h1, h2, ⟨tableSet_ascending h3.1 _ _, ?_⟩, ?_, ?_, h6, ⟨h7.1, ?_⟩, ?_, ?_, ?_⟩
  · intro e he
    rcases mem_tableSet he with rfl | he
    · exact h3.2 (r, q) hmem
    · exact h3.2 e he
  · intro e he
    obtain ⟨x, hx, hprimary⟩ := h4 e he
    rw [State.record?_setRecord]
    split
    · next hn =>
      rw [hn, h, Option.some.injEq] at hx
      exact ⟨q', rfl, fun hk => hcode.trans (hx ▸ hprimary hk)⟩
    · exact ⟨x, hx, hprimary⟩
  · intro e he
    rcases mem_tableSet he with rfl | he
    · exact h5 (r, q) hmem
    · exact h5 e he
  · intro c hc
    obtain ⟨hlt, x, hx, hcx⟩ := h7.2 c hc
    refine ⟨hlt, ?_⟩
    rw [State.record?_setRecord]
    split
    · next hn =>
      rw [hn, h, Option.some.injEq] at hx
      exact ⟨q', rfl, hcells.symm ▸ hx ▸ hcx⟩
    · exact ⟨x, hx, hcx⟩
  · intro e he
    rcases mem_tableSet he with rfl | he
    · exact hcells.symm ▸ h8 (r, q) hmem
    · exact h8 e he
  · exact fun st hst e he => (hoccupied _).trans (h9 st hst e he)
  · have hnone (n : Nat) : (s.setRecord r q').record? n = none ↔ s.record? n = none := by
      rw [← Option.isNone_iff_eq_none, ← Option.isNone_iff_eq_none, ← Option.not_isSome, ← Option.not_isSome, hoccupied]
    have hholds : ∀ work, State.operationStands.holds s work → State.operationStands.holds (s.setRecord r q') work := by
      intro work hw
      cases work with
      | load a => exact ⟨hw.1, hw.2.1, (hnone _).2 hw.2.2.1, hw.2.2.2⟩
      | addAlias code n => exact ⟨hw.1, hw.2.1, (hoccupied n).trans hw.2.2.1, hw.2.2.2⟩
      | dropAlias code => exact hw
      | dropSymbol code n => exact hw
    unfold State.operationStands at h10 ⊢
    rw [State.setRecord_directory]
    split <;> simp_all

/-- A record changed in fields that no other table speaks of keeps every law, when it keeps its own. -/
theorem Keeps.ofRecord (h : s.record? r = some q) (hcode : q'.code = q.code) (hcells : q'.cells = q.cells)
    (hlawful : q.lawful → q'.lawful) : Keeps s (s.setRecord r q') :=
  { Keeps.refl s with
    references := State.setRecord_references h hcode hcells
    records := fun hr => by
      refine ⟨fun e he => ?_, hr.2⟩
      rcases mem_tableSet he with rfl | he
      · exact hlawful (hr.1 _ (mem_of_tableGet h))
      · exact hr.1 e he
    pages := fun _ _ hp => hp }

end

end Sys2Proof.Machine
end


section
/-! PROOF. Tapes: the ribbon, the queue and the notice slot agree, and the places of the queue keep their law, whatever an
offer, a cancel hand-off or a completion does (R73, R76 to R88). -/

namespace Sys2Proof.Machine

/-! ### The places of a queue (R77, R78) -/

/-- A queue's OMITTED notices are counted by its items' kinds alone. -/
theorem length_filter_isOmitted (queue : List Item) :
    (queue.filter Item.isOmitted).length = (queue.map Item.isOmitted).count true := by
  rw [← List.countP_eq_length_filter, List.count, List.countP_map]
  exact List.countP_congr fun i _ => by simp

/-- Items changed with their places and kinds kept leave the queue's law as it stands. -/
theorem Tape.placed_of_map {t : Tape} {queue : List Item} (h : queue.map Item.isOmitted = t.queue.map Item.isOmitted)
    (hp : t.placed) : Tape.placed { t with queue := queue } := by
  obtain ⟨hlen, hone, hfull, hnone⟩ := hp
  have hl : queue.length = t.queue.length := by simpa using congrArg List.length h
  have hf : (queue.filter Item.isOmitted).length = (t.queue.filter Item.isOmitted).length := by
    rw [length_filter_isOmitted, length_filter_isOmitted, h]
  refine ⟨hl ▸ hlen, hf ▸ hone, fun hh => hf ▸ hfull (hl ▸ hh), fun hh => ?_⟩
  exact List.length_eq_zero_iff.1 (hf.trans (List.length_eq_zero_iff.2 (hnone hh)))

/-- A queue that an item has left has room for the notice of what was omitted (R78). -/
theorem Tape.departed_placed {t : Tape} (now : Reading) (hlen : t.queue.length ≤ 127)
    (hone : (t.queue.filter Item.isOmitted).length ≤ 1) (hnone : t.omitted ≠ 0 → t.queue.filter Item.isOmitted = []) :
    (t.departed now).placed := by
  rw [Tape.departed_eq]
  by_cases h : t.omitted = 0
  · simp only [if_pos h]
    exact ⟨Nat.le_succ_of_le hlen, hone, fun hh => absurd (Nat.le_of_eq hh.symm) (Nat.not_le.2 (Nat.lt_succ_of_le hlen)),
      fun hh => absurd rfl hh⟩
  · have hnotice : [Item.mk now (.omitted t.omitted)].filter Item.isOmitted = [⟨now, .omitted t.omitted⟩] := rfl
    simp only [if_neg h, Tape.placed, List.length_append, List.length_singleton, List.filter_append, hnone h, hnotice,
      List.nil_append]
    exact ⟨by omega, le_rfl, fun _ => trivial, fun hh => absurd rfl hh⟩

/-- An item that is no OMITTED notice joins a queue of fewer than 127. -/
theorem Tape.placed_append {t : Tape} {item : Item} (hp : t.placed) (hi : item.isOmitted = false)
    (hlen : t.queue.length < 127) : Tape.placed { t with queue := t.queue ++ [item] } := by
  obtain ⟨-, hone, -, hnone⟩ := hp
  have hf : (t.queue ++ [item]).filter Item.isOmitted = t.queue.filter Item.isOmitted := by simp [hi]
  simp only [Tape.placed, hf, List.length_append, List.length_singleton]
  exact ⟨by omega, hone, fun hh => by omega, hnone⟩

/-! ### Starts and completions (R80 to R85) -/

theorem shownAfterItem_ranged (level : Nat) {shown : List Code} (hn : shown.Nodup) (hl : shown.length ≤ 1024)
    (kind : ItemKind) : (shownAfterItem level shown kind).Nodup ∧ (shownAfterItem level shown kind).length ≤ 1024 := by
  cases kind with
  | print code _ _ _ _ _ =>
    simp only [shownAfterItem, shownAfter]
    split
    · next h =>
      refine ⟨List.nodup_append.2 ⟨hn, List.nodup_singleton _, fun a ha b hb hab => ?_⟩, by simp; omega⟩
      obtain rfl : b = code := by simpa using hb
      exact h.2.1 (hab ▸ ha)
    · exact ⟨hn, hl⟩
  | _ => exact ⟨hn, hl⟩

theorem nextLevel_le (p : Params) {level : Nat} (h : level ≤ 3) (late : Nat) : nextLevel p level late ≤ 3 := by
  have ht : targetLevel p late ≤ 3 := by
    unfold targetLevel
    split
    · omega
    · split
      · omega
      · split <;> omega
  unfold nextLevel
  split
  · exact ht
  · split <;> omega

section
variable {t : Tape} (p : Params) (rate : Nat) (now : Reading)

/-- The head item started, or the ribbon gone IDLE, leaves a lawful tape (R80). -/
theorem Tape.startHead_lawful (hslot : t.slot = none) (hp : t.placed) (hr : t.ranged) :
    (t.startHead p rate now).lawful := by
  obtain ⟨hlen, hone, hfull, hnone⟩ := hp
  obtain ⟨hlevel, homit, hnodup, hshown⟩ := hr
  unfold Tape.startHead
  split
  · next hq => exact ⟨⟨hq, hslot⟩, ⟨hlen, hone, hfull, hnone⟩, hlevel, homit, hnodup, hshown⟩
  · next head rest hq =>
    rw [hq] at hlen hone hnone
    have hsub : (rest.filter Item.isOmitted).Sublist ((head :: rest).filter Item.isOmitted) :=
      (List.sublist_cons_self head rest).filter _
    have hplaced := Tape.departed_placed (t := { t with
        queue := rest
        ribbon := .item (itemText t.level p.blockThreshold t.shown head.kind)
          (after now (ribbonTime (itemText t.level p.blockThreshold t.shown head.kind).length rate))
        shown := shownAfterItem t.level t.shown head.kind }) now (Nat.le_of_succ_le_succ hlen) (hsub.length_le.trans hone)
      fun hh => List.eq_nil_of_sublist_nil (hnone hh ▸ hsub)
    refine ⟨?_, hplaced, ?_⟩
    · rw [Tape.departed_eq]
      exact hslot
    · rw [Tape.departed_eq]
      exact ⟨hlevel, Nat.zero_le _, shownAfterItem_ranged t.level hnodup hshown head.kind⟩

/-- A level notice started leaves a lawful tape (R83). -/
theorem Tape.startNotice_lawful {level : Nat} (hl : level ≤ 3) (hp : t.placed) (hr : t.ranged) :
    (t.startNotice level rate now).lawful := by
  obtain ⟨-, homit, hnodup, hshown⟩ := hr
  refine ⟨⟨_, rfl, rfl⟩, hp, hl, homit, ?_⟩
  unfold Tape.startNotice
  simp only
  split
  · simp
  · exact ⟨hnodup, hshown⟩

theorem Tape.startEvent_lawful (hslot : t.slot = none) (hp : t.placed) (hr : t.ranged) :
    (t.startEvent p rate now).lawful := by
  unfold Tape.startEvent
  split
  · next hq => exact ⟨⟨hq, hslot⟩, hp, hr⟩
  · simp only
    split
    · exact Tape.startHead_lawful p rate now hslot hp hr
    · exact Tape.startNotice_lawful rate now (nextLevel_le p hr.1 _) hp hr

/-- A text's completion leaves a lawful tape (R80). -/
theorem Tape.completed_lawful (h : t.lawful) : (t.completed p rate now).lawful := by
  obtain ⟨hagrees, hp, hr⟩ := h
  unfold Tape.completed
  split
  · next hribbon => exact ⟨hagrees, hp, hr⟩
  · exact Tape.startHead_lawful (t := { t with slot := none }) p rate now rfl hp hr
  · next hribbon =>
    simp only [Tape.agrees, hribbon] at hagrees
    exact Tape.startEvent_lawful p rate now hagrees hp hr

end

/-! ### Merging, omitting and shrinking (R77, R87, R88) -/

theorem isOmitted_of_printCode {i : Item} {code : Code} (h : printCode i.kind = some code) : i.isOmitted = false := by
  unfold Item.isOmitted
  split
  · next hk => simp [hk, printCode] at h
  · rfl

theorem mergeInto_isOmitted {offered : ItemKind} {i : Item} {merged : ItemKind} (h : mergeInto offered i.kind = some merged) :
    Item.isOmitted { i with kind := merged } = i.isOmitted := by
  unfold mergeInto at h
  split at h
  · next hk =>
    split at h
    · cases h
      simp [Item.isOmitted, hk]
    · cases h
  · cases h

/-- A merge keeps every item's place and kind (R87). -/
theorem mergeNewest_map {offered : ItemKind} {code : Code} {queue merged : List Item}
    (h : mergeNewest offered code queue = some (some merged)) : merged.map Item.isOmitted = queue.map Item.isOmitted := by
  induction queue generalizing merged with
  | nil => cases h
  | cons i rest ih =>
    simp only [mergeNewest] at h
    split at h
    · next outcome hrest =>
      rw [Option.some.injEq, Option.map_eq_some_iff] at h
      obtain ⟨tail, rfl, rfl⟩ := h
      rw [List.map_cons, List.map_cons, ih hrest]
    · split at h
      · rw [Option.some.injEq, Option.map_eq_some_iff] at h
        obtain ⟨kind, hkind, rfl⟩ := h
        rw [List.map_cons, List.map_cons, mergeInto_isOmitted hkind]
      · cases h

theorem Tape.merge_map {t : Tape} {offered : ItemKind} {queue : List Item} (h : t.merge offered = some queue) :
    queue.map Item.isOmitted = t.queue.map Item.isOmitted := by
  unfold Tape.merge at h
  split at h
  · cases h
  · split at h
    · exact mergeNewest_map (Option.join_eq_some_iff.1 h)
    · cases h

/-- Counting in the queued notice keeps every item's place and kind; without one the queue holds none (R77). -/
theorem countInNotice_spec (queue : List Item) :
    (countInNotice queue = none → queue.filter Item.isOmitted = []) ∧
      ∀ counted, countInNotice queue = some counted → counted.map Item.isOmitted = queue.map Item.isOmitted := by
  induction queue with
  | nil => exact ⟨fun _ => rfl, fun _ h => by cases h⟩
  | cons i rest ih =>
    simp only [countInNotice]
    split
    · next count hk =>
      refine ⟨fun h => by simp at h, fun counted h => ?_⟩
      cases h
      simp [Item.isOmitted, hk]
    · next hk =>
      have hi : i.isOmitted = false := by
        unfold Item.isOmitted
        split
        · next count hc => exact absurd hc (hk count)
        · rfl
      refine ⟨fun h => ?_, fun counted h => ?_⟩
      · rw [Option.map_eq_none_iff] at h
        simpa [hi] using ih.1 h
      · obtain ⟨tail, htail, rfl⟩ := Option.map_eq_some_iff.1 h
        rw [List.map_cons, List.map_cons, ih.2 tail htail]

/-- R73's agreement rests on whether the queue is empty, and on no more of it. -/
theorem Tape.agrees_queue {t : Tape} {queue : List Item} (h : t.agrees) (he : t.queue = [] → queue = []) :
    Tape.agrees { t with queue := queue } := by
  obtain ⟨_, ribbon, _, _, _, _⟩ := t
  cases ribbon with
  | idle => exact ⟨he h.1, h.2⟩
  | notice text doneAt => exact h
  | item text doneAt => exact h

/-- With a text on the ribbon, R73's agreement does not look at the queue. -/
theorem Tape.agrees_busy {t : Tape} (hbusy : t.ribbon ≠ .idle) (h : t.agrees) (queue : List Item) :
    Tape.agrees { t with queue := queue } := by
  obtain ⟨_, ribbon, _, _, _, _⟩ := t
  cases ribbon with
  | idle => exact absurd rfl hbusy
  | notice text doneAt => exact h
  | item text doneAt => exact h

theorem Tape.lawful_of_map {t : Tape} {queue : List Item} (h : queue.map Item.isOmitted = t.queue.map Item.isOmitted)
    (ht : t.lawful) : Tape.lawful { t with queue := queue } := by
  obtain ⟨hagrees, hp, hr⟩ := ht
  refine ⟨Tape.agrees_queue hagrees fun he => ?_, Tape.placed_of_map h hp, hr⟩
  simpa [he] using h

theorem Tape.omit_lawful {t : Tape} (h : t.lawful) : t.omit.lawful := by
  obtain ⟨hnone, hsome⟩ := countInNotice_spec t.queue
  unfold Tape.omit
  split
  · next queue hq => exact Tape.lawful_of_map (hsome queue hq) h
  · next hq =>
    obtain ⟨hagrees, ⟨hlen, hone, hfull, -⟩, hlevel, -, hshown⟩ := h
    exact ⟨hagrees, ⟨hlen, hone, hfull, fun _ => hnone hq⟩, hlevel, Nat.min_le_left _ _, hshown⟩

/-- Every offer of an item that is no OMITTED notice leaves a lawful tape (R76, R77, R87). -/
theorem Tape.offer_lawful {t : Tape} (p : Params) (rate : Nat) (now : Reading) {item : Item} (hi : item.isOmitted = false)
    (h : t.lawful) : (t.offer p rate now item).1.lawful := by
  rcases Tape.offer_cases t p rate now item with ⟨queue, hm, ho⟩ | ⟨hidle, ho⟩ | ⟨hbusy, hlen, ho⟩ | ⟨-, -, ho⟩ <;> rw [ho]
  · exact Tape.lawful_of_map (Tape.merge_map hm) h
  · obtain ⟨hagrees, hp, hr⟩ := h
    simp only [Tape.agrees, hidle] at hagrees
    exact Tape.startEvent_lawful p rate now hagrees.2 (Tape.placed_append hp hi (by simp [hagrees.1])) hr
  · obtain ⟨hagrees, hp, hr⟩ := h
    exact ⟨Tape.agrees_busy hbusy hagrees _, Tape.placed_append hp hi hlen, hr⟩
  · exact Tape.omit_lawful h

/-- A cancel hand-off that finds an item shrinks it in its place, or takes it out and nothing else (R88). -/
theorem shrinkNewest_spec {code : Code} {sequence volume : Nat} {queue : List Item} {left : Bool} {after : List Item}
    (h : shrinkNewest code sequence volume queue = some (left, after)) :
    (left = false → after.map Item.isOmitted = queue.map Item.isOmitted) ∧
      (left = true → after.Sublist queue ∧ after.length + 1 = queue.length) := by
  induction queue generalizing left after with
  | nil => cases h
  | cons i rest ih =>
    simp only [shrinkNewest] at h
    split at h
    · next b tail hrest =>
      cases h
      obtain ⟨hkept, hleft⟩ := ih hrest
      refine ⟨fun hb => by rw [List.map_cons, List.map_cons, hkept hb], fun hb => ?_⟩
      obtain ⟨hsub, hlen⟩ := hleft hb
      exact ⟨hsub.cons_cons i, by simpa using hlen⟩
    · split at h
      · cases h
      · cases h
        exact ⟨(nomatch ·), fun _ => ⟨List.sublist_cons_self _ _, rfl⟩⟩
      · next shrunk hs =>
        cases h
        refine ⟨fun _ => ?_, (nomatch ·)⟩
        have hkind : shrunk.isOmitted = i.isOmitted := by
          unfold shrinkItem at hs
          split at hs
          · next hk =>
            split at hs
            · split at hs
              · cases hs
              · cases hs
                simp [Item.isOmitted, hk]
            · cases hs
          · cases hs
        rw [List.map_cons, List.map_cons, hkind]

/-- An item gone from the queue leaves a lawful tape, an omitted count in its place (R78, R88). -/
theorem Tape.departed_lawful {t : Tape} (h : t.lawful) (now : Reading) {queue : List Item} (hsub : queue.Sublist t.queue)
    (hlen : queue.length + 1 = t.queue.length) : (Tape.departed { t with queue := queue } now).lawful := by
  obtain ⟨hagrees, ⟨hl, hone, -, hnone⟩, hlevel, -, hshown⟩ := h
  have hfilter := hsub.filter Item.isOmitted
  refine ⟨?_, Tape.departed_placed now (by simp only; omega) (hfilter.length_le.trans hone)
    fun hh => List.eq_nil_of_sublist_nil (hnone hh ▸ hfilter), ?_⟩
  · rw [Tape.departed_eq]
    refine Tape.agrees_queue (t := { t with omitted := 0 }) hagrees fun he => ?_
    simp only at he
    rw [he] at hlen
    cases hlen
  · rw [Tape.departed_eq]
    exact ⟨hlevel, Nat.zero_le _, hshown⟩

/-! ### The state's offers -/

theorem bump_le (count addition : Nat) : bump count addition ≤ 65535 := Nat.min_le_left _ _

section
variable {s : State}

/-- A tape replaced by a lawful one keeps every law. -/
theorem Keeps.ofTape (id : TapeId) {t : Tape} (h : (s.tape id).lawful → t.lawful) : Keeps s (s.setTape id t) := by
  cases id
  · exact Keeps.ofTapes (a := t) (b := s.tapeB) h fun hb => hb
  · exact Keeps.ofTapes (a := s.tapeA) (b := t) (fun ha => ha) h

/-- The omission counter of a tape is a 16-bit count (0.6.5). -/
theorem Keeps.offerTo (id : TapeId) {kind : ItemKind} (hk : Item.isOmitted ⟨s.clock, kind⟩ = false) :
    Keeps s (s.offerTo id kind) := by
  have htape : Keeps s (s.setTape id
      ((s.tape id).offer s.params (s.params.rate id) s.clock { stamp := s.clock, kind := kind }).1) :=
    Keeps.ofTape id fun h => Tape.offer_lawful _ _ _ hk h
  unfold State.offerTo
  simp only
  split
  · cases id <;> refine htape.trans (Keeps.ofCounters fun h => ?_)
    · obtain ⟨h1, h2, h3, h4, h5, h6, h7, h8, h9, h10, h11, h12, h13, -, h15⟩ := h
      exact ⟨h1, h2, h3, h4, h5, h6, h7, h8, h9, h10, h11, h12, h13, bump_le _ _, h15⟩
    · obtain ⟨h1, h2, h3, h4, h5, h6, h7, h8, h9, h10, h11, h12, h13, h14, -, h16⟩ := h
      exact ⟨h1, h2, h3, h4, h5, h6, h7, h8, h9, h10, h11, h12, h13, h14, bump_le _ _, h16⟩
  · exact htape

theorem Keeps.offer (toA toB : Bool) {kind : ItemKind} (hk : ∀ now, Item.isOmitted ⟨now, kind⟩ = false) :
    Keeps s (s.offer toA toB kind) := by
  have ha : Keeps s (if toA then s.offerTo .a kind else s) := by
    split
    · exact Keeps.offerTo .a (hk _)
    · exact Keeps.refl s
  unfold State.offer
  simp only
  split
  · exact ha.trans (Keeps.offerTo .b (hk _))
  · exact ha

theorem Keeps.cancelOn (id : TapeId) (code : Code) (sequence price grid volume : Nat) :
    Keeps s (s.cancelOn id code sequence price grid volume) := by
  unfold State.cancelOn
  split
  · next queue hq =>
    obtain ⟨hsub, hlen⟩ := (shrinkNewest_spec hq).2 rfl
    exact Keeps.ofTape id fun h => Tape.departed_lawful h s.clock hsub hlen
  · next queue hq => exact Keeps.ofTape id fun h => Tape.lawful_of_map ((shrinkNewest_spec hq).1 rfl) h
  · exact Keeps.offerTo id rfl

theorem Keeps.cancel (toA toB : Bool) (code : Code) (sequence price grid volume : Nat) :
    Keeps s (s.cancel toA toB code sequence price grid volume) := by
  have ha : Keeps s (if toA then s.cancelOn .a code sequence price grid volume else s) := by
    split
    · exact Keeps.cancelOn .a code sequence price grid volume
    · exact Keeps.refl s
  unfold State.cancel
  simp only
  split
  · exact ha.trans (Keeps.cancelOn .b code sequence price grid volume)
  · exact ha

theorem Keeps.ribbonCompleted (id : TapeId) :
    Keeps s (s.setTape id ((s.tape id).completed s.params (s.params.rate id) s.clock)) :=
  Keeps.ofTape id fun h => Tape.completed_lawful _ _ _ h

end

end Sys2Proof.Machine
end


section
/-! PROOF. Boards: the dirty queue holds no cell twice, and panels, pause state and the block in flight agree, whatever an
assembly, an outcome, a sweep or a command of the board does (R101, sections 5.4 to 5.6). -/

namespace Sys2Proof.Machine

section
variable {b : Board}

theorem Board.mark_lawful (h : b.lawful) (cells : List Nat) : (b.mark cells).lawful :=
  ⟨markCells_nodup h.1 cells, h.2⟩

/-- A panel reads as changed, and every other as before. -/
theorem Board.modifyPanel_state (b : Board) (panel n : Nat) (f : Panel → Panel) :
    (b.modifyPanel panel f).panelState n =
      if n = panel then ((b.panels[panel]?.map f).map Panel.state).getD .out else b.panelState n := by
  simp only [Board.modifyPanel, Board.panelState, List.getElem?_modify]
  by_cases h : n = panel
  · subst h
    cases b.panels[n]? <;> simp
  · have : ¬ panel = n := fun hh => h hh.symm
    cases b.panels[n]? <;> simp [h, this]

/-- Every panel of a list of panels with one changed is one of the old ones or the one changed. -/
theorem mem_modify {α : Type} {l : List α} {n : Nat} {f : α → α} {x : α} (h : x ∈ l.modify n f) :
    x ∈ l ∨ ∃ y, l[n]? = some y ∧ x = f y := by
  obtain ⟨i, hi, rfl⟩ := List.mem_iff_getElem.1 h
  have hget := List.getElem?_eq_getElem hi
  rw [List.getElem?_modify] at hget
  obtain ⟨y, hy, hxy⟩ := Option.map_eq_some_iff.1 hget
  by_cases hin : n = i
  · subst hin
    exact Or.inr ⟨y, hy, by simpa using hxy.symm⟩
  · refine Or.inl (List.mem_iff_getElem?.2 ⟨i, ?_⟩)
    simpa [hin, hy] using hxy

/-- A panel changed to one that counts, and that is not OUT under a block in flight, leaves a lawful board. -/
theorem Board.modifyPanel_lawful (h : b.lawful) {panel : Nat} {f : Panel → Panel}
    (hcount : ∀ p, b.panels[panel]? = some p → p.counted → (f p).counted)
    (hfly : ∀ blk, b.block = some blk → blk.panel = panel → ∀ p, b.panels[panel]? = some p → p.state ≠ .out →
      (f p).state ≠ .out) : (b.modifyPanel panel f).lawful := by
  obtain ⟨hdirty, hmap, hfour, hpanels, hpaused, hflying⟩ := h
  refine ⟨hdirty, hmap, by simpa [Board.modifyPanel] using hfour, ?_, hpaused, ?_⟩
  · intro p hp
    rcases mem_modify hp with hp | ⟨q, hq, rfl⟩
    · exact hpanels p hp
    · exact hcount q hq (hpanels q (List.mem_of_getElem? hq))
  · intro blk hblk
    have hold := hflying blk hblk
    rw [Board.modifyPanel_state]
    split
    · next hpanel =>
      rw [← hpanel]
      cases hq : b.panels[blk.panel]? with
      | none => simp [Board.panelState, hq] at hold
      | some q =>
        have hne : q.state ≠ .out := by simpa [Board.panelState, hq] using hold
        simpa using hfly blk hblk hpanel q (hpanel ▸ hq) hne
    · exact hold

/-- Cells that leave the dirty queue leave a lawful board. -/
theorem Board.lawful_sublist (h : b.lawful) {dirty : List Nat} (hsub : dirty.Sublist b.dirty) :
    Board.lawful { b with dirty := dirty } :=
  ⟨h.1.sublist hsub, h.2⟩

/-! ### Assembly (R103) -/

theorem takePanel_sublist (panel room : Nat) (queue : List Nat) : (takePanel panel room queue).2.Sublist queue := by
  induction queue generalizing room with
  | nil => simp [takePanel]
  | cons c rest ih =>
    cases room with
    | zero => simp [takePanel]
    | succ k =>
      simp only [takePanel]
      split
      · exact (ih k).cons c
      · exact (ih (k + 1)).cons_cons c

/-- A block goes to a panel that is not OUT, and what leaves the dirty queue leaves the rest in order (R103). -/
theorem State.assemble_lawful {s : State} (h : s.board.lawful) : s.assemble.board.lawful := by
  unfold State.assemble
  split
  · next hidle =>
    have hfront : (s.board.waiting (s.board.dirty.takeWhile s.board.passedOver)).Sublist
        (s.board.dirty.takeWhile s.board.passedOver) := Board.waiting_sublist _ _
    simp only
    split
    · exact Board.lawful_sublist h (hfront.trans (List.takeWhile_sublist _))
    · next c rest hrest =>
      obtain ⟨hdirty, hmap, hfour, hpanels, hpaused, -⟩ := h
      have hsub : (s.board.waiting (s.board.dirty.takeWhile s.board.passedOver) ++
          (takePanel (panelOf c) (s.params.blockSize - 1) rest).2).Sublist s.board.dirty := by
        have happend := hfront.append ((takePanel_sublist (panelOf c) (s.params.blockSize - 1) rest).trans
          (List.sublist_cons_self c rest))
        rwa [← hrest, List.takeWhile_append_dropWhile] at happend
      have hc : s.board.passedOver c = false := by
        have := List.head_dropWhile_not (p := s.board.passedOver) (l := s.board.dirty) (by simp [hrest])
        simpa [hrest] using this
      refine ⟨hdirty.sublist hsub, hmap, hfour, hpanels, ⟨fun hh => ?_, fun hh => ?_⟩, ?_⟩
      · simp [hidle.1] at hh
      · simp [hidle.1] at hh
      · intro blk hblk
        obtain rfl : s.makeBlock (panelOf c) (c :: (takePanel (panelOf c) (s.params.blockSize - 1) rest).1) = blk :=
          Option.some.inj hblk
        intro hout
        have hpassed := (Board.passedOver_iff s.board c).2 (Or.inl hout)
        rw [hc] at hpassed
        cases hpassed
  · exact h

/-! ### Outcomes (R104 to R108) -/

/-- The block gone from flight leaves a lawful board, PAUSED where it was PAUSING (R113). -/
theorem Board.outcomeTaken_lawful (h : b.lawful) : b.outcomeTaken.lawful := by
  obtain ⟨hdirty, hmap, hfour, hpanels, hpaused, -⟩ := h
  refine ⟨hdirty, hmap, hfour, hpanels, ⟨fun hh => ?_, fun _ => rfl⟩, fun blk hblk => by cases hblk⟩
  unfold Board.outcomeTaken at hh
  simp only at hh
  split at hh
  · cases hh
  · contradiction

theorem Board.succeed_lawful (h : b.lawful) {blk : Block} (hblk : b.block = some blk) : (b.succeed blk.panel).lawful := by
  have hfly := h.2.2.2.2.2 blk hblk
  refine Board.outcomeTaken_lawful (Board.modifyPanel_lawful h ?_ ?_)
  · intro p hp _
    have hne : p.state ≠ .out := by simpa [Board.panelState, hp] using hfly
    cases hs : p.state <;> simp_all [Panel.counted]
  · intro _ _ _ p _ hne
    cases hs : p.state <;> simp_all

/-- An OUT panel's cells gone and its count 8: lawful, with the block that failed out of flight (R108). -/
theorem Board.giveUp_outcome_lawful (h : b.lawful) (panel : Nat) : (b.giveUp panel).outcomeTaken.lawful := by
  have hgone : Board.lawful { b with block := none, pause := if b.pause = .pausing then .paused else b.pause } :=
    Board.outcomeTaken_lawful h
  have hpanel := Board.modifyPanel_lawful (panel := panel) (f := fun _ => { state := .out, failures := 8 }) hgone
    (fun _ _ _ => rfl) (fun blk hblk => by cases hblk)
  exact Board.lawful_sublist hpanel List.filter_sublist

theorem Board.failPanel_outcome_lawful (h : b.lawful) (blk : Block) : (b.failPanel blk).outcomeTaken.lawful := by
  unfold Board.failPanel
  split
  · exact Board.outcomeTaken_lawful h
  · next p hp =>
    split
    · next hs =>
      split
      · next hcount =>
        refine Board.outcomeTaken_lawful (Board.mark_lawful (Board.modifyPanel_lawful h ?_ ?_) _)
        · intro q hq _
          obtain rfl : p = q := Option.some.inj (hp.symm.trans hq)
          simp only [Panel.counted, hs]
          omega
        · exact fun _ _ _ _ _ hne => hne
      · exact Board.giveUp_outcome_lawful h blk.panel
    · exact Board.giveUp_outcome_lawful h blk.panel
    · exact Board.outcomeTaken_lawful h

/-! ### The sweep and the board's commands (R109 to R114) -/

theorem Board.sweepPanel_lawful (h : b.lawful) (panel : Nat) : (b.sweepPanel panel).lawful := by
  refine Board.mark_lawful (Board.modifyPanel_lawful h ?_ ?_) _
  · intro p _ hp
    cases hs : p.state <;> simp_all [Panel.counted]
  · intro _ _ _ p _ hne
    cases hs : p.state <;> simp_all

theorem Board.sweep_lawful (h : b.lawful) : b.sweep.lawful :=
  Board.sweepPanel_lawful (Board.sweepPanel_lawful (Board.sweepPanel_lawful (Board.sweepPanel_lawful h 0) 1) 2) 3

theorem Board.restored_lawful (h : b.lawful) (panel : Nat) : (b.modifyPanel panel fun _ => Panel.fresh).lawful :=
  Board.modifyPanel_lawful h (fun _ _ _ => Nat.zero_le _) (fun _ _ _ _ _ _ => by simp [Panel.fresh])

/-- PAUSE BOARD waits for the block in flight, if there is one (R112). -/
theorem Board.pause_lawful (h : b.lawful) :
    Board.lawful { b with pause :=
      if b.pause = .running then (if b.block.isSome then .pausing else .paused) else b.pause } := by
  obtain ⟨hdirty, hmap, hfour, hpanels, hpaused, hflying⟩ := h
  refine ⟨hdirty, hmap, hfour, hpanels, ?_, hflying⟩
  by_cases hr : b.pause = .running
  · cases b.block <;> simp [Board.paused, hr]
  · simpa only [Board.paused, if_neg hr] using hpaused

theorem Board.running_lawful (h : b.lawful) : Board.lawful { b with pause := .running } := by
  obtain ⟨hdirty, hmap, hfour, hpanels, -, hflying⟩ := h
  exact ⟨hdirty, hmap, hfour, hpanels, ⟨(nomatch ·), (nomatch ·)⟩, hflying⟩

end

/-! ### The state's board -/

section
variable {s : State}

theorem Keeps.mark (cells : List Nat) : Keeps s (s.markCells cells) :=
  Keeps.ofBoard (fun h => Board.mark_lawful h cells) rfl

theorem Keeps.markAssigned : Keeps s s.markAssigned := Keeps.mark _

theorem Keeps.assemble : Keeps s s.assemble := by
  rw [State.assemble_frame]
  refine Keeps.ofBoard (fun h => ?_) rfl
  have hlawful := State.assemble_lawful h
  rwa [State.assemble_frame] at hlawful

/-- A block that fails is counted, and its panel dealt with (R107). -/
theorem Keeps.failBlock (blk : Block) : Keeps s (s.failBlock blk) := by
  have hmap : (s.board.failPanel blk).outcomeTaken.cellMap = s.board.cellMap := by
    unfold Board.failPanel
    split
    · rfl
    · split
      · split <;> rfl
      · rfl
      · rfl
  have hboard : Keeps s { s with board := (s.board.failPanel blk).outcomeTaken } :=
    Keeps.ofBoard (fun h => Board.failPanel_outcome_lawful h blk) hmap
  refine hboard.trans (Keeps.ofCounters fun h => ?_)
  obtain ⟨h1, h2, h3, h4, h5, h6, h7, h8, h9, h10, h11, h12, h13, h14, h15, -⟩ := h
  exact ⟨h1, h2, h3, h4, h5, h6, h7, h8, h9, h10, h11, h12, h13, h14, h15, bump_le _ _⟩

theorem Keeps.succeed {blk : Block} (hblk : s.board.block = some blk) :
    Keeps s { s with board := s.board.succeed blk.panel } :=
  Keeps.ofBoard (fun h => Board.succeed_lawful h hblk) rfl

theorem Keeps.swept (sweepAt : Reading) : Keeps s { s with board := { s.board.sweep with sweepAt := sweepAt } } :=
  Keeps.ofBoard (fun h => Board.sweep_lawful h) rfl

end

end Sys2Proof.Machine
end


section
/-! PROOF. Station records: what each event, request and command does to a list, its marks and alerts, a timer and a count
(R143, R149 to R158, R119, R132). -/

namespace Sys2Proof.Machine

section
variable {s : State} {st : Station}

/-! ### Lists that keep their entries' records (R143) -/

/-- A list whose entries keep their records in their order, and an alert queue with no alert new, keep R143. -/
theorem Station.listed_of_records {st' : Station} (hw : st'.watch.map WatchEntry.record = st.watch.map WatchEntry.record)
    (ha : st'.alerts.Sublist st.alerts) (h : st.listed) : st'.listed := by
  obtain ⟨hlen, hnodup, halerts, hlisted⟩ := h
  refine ⟨?_, hw ▸ hnodup, halerts.sublist (ha.map _), fun a hm => hw ▸ hlisted a (ha.subset hm)⟩
  have := congrArg List.length hw
  simp only [List.length_map] at this
  omega

theorem mem_records {watch watch' : List WatchEntry} (hw : watch'.map WatchEntry.record = watch.map WatchEntry.record)
    {e' : WatchEntry} (he : e' ∈ watch') : ∃ e ∈ watch, e.record = e'.record :=
  List.mem_map.1 (hw ▸ List.mem_map_of_mem he)

/-- Entries changed in their own fields keep their records in their order. -/
theorem map_records {watch : List WatchEntry} {f : WatchEntry → WatchEntry} (hf : ∀ e, (f e).record = e.record) :
    (watch.map f).map WatchEntry.record = watch.map WatchEntry.record := by
  rw [List.map_map]
  exact List.map_congr_left fun e _ => hf e

/-- A station whose list keeps its records has the frame of the list. -/
theorem StationFrame.of_records {st' : Station} (hc : st.counted → st'.counted)
    (hw : st'.watch.map WatchEntry.record = st.watch.map WatchEntry.record) : StationFrame s st st' := by
  refine .of_watch hc (Nat.le_of_eq ?_) fun e' he' => mem_records hw he'
  simpa using congrArg List.length hw

/-- A station with only its counters changed, each to a 16-bit count. -/
theorem StationKeeps.ofCounters {c : StationCounters} (hc : st.counted → Station.counted { st with counters := c }) :
    StationKeeps s st { st with counters := c } :=
  { StationFrame.of_records hc rfl with lawful := id, presence := rfl, run := rfl }

theorem StationKeeps.countTimeout : StationKeeps s st st.countTimeout :=
  .ofCounters fun ⟨_, h2, h3, h4, h5⟩ => ⟨bump_le _ _, h2, h3, h4, h5⟩

theorem StationKeeps.countCheckError : StationKeeps s st st.countCheckError :=
  .ofCounters fun ⟨h1, _, h3, h4, h5⟩ => ⟨h1, bump_le _ _, h3, h4, h5⟩

theorem StationKeeps.countLost : StationKeeps s st st.countLost :=
  .ofCounters fun ⟨h1, h2, _, h4, h5⟩ => ⟨h1, h2, bump_le _ _, h4, h5⟩

theorem StationKeeps.countPhaseFault : StationKeeps s st st.countPhaseFault :=
  .ofCounters fun ⟨h1, h2, h3, _, h5⟩ => ⟨h1, h2, h3, bump_le _ _, h5⟩

theorem StationKeeps.countersCleared : StationKeeps s st { st with counters := StationCounters.zero } :=
  .ofCounters fun _ => ⟨Nat.zero_le _, Nat.zero_le _, Nat.zero_le _, Nat.zero_le _, Nat.zero_le _⟩

/-- Entries marked or unmarked, and alerts gone: the station keeps its laws unless a DETACHED one gains a mark. -/
theorem StationKeeps.ofEntries {watch : List WatchEntry} {alerts : List Alert}
    (hw : watch.map WatchEntry.record = st.watch.map WatchEntry.record) (ha : alerts.Sublist st.alerts)
    (hd : st.presence = .detached → (∀ e ∈ st.watch, e.pending = false) → ∀ e ∈ watch, e.pending = false) :
    StationKeeps s st { st with watch := watch, alerts := alerts } :=
  { toStationFrame := .of_records (fun hc => hc) hw
    lawful := fun ⟨hlisted, htimed, hempty⟩ => by
      refine ⟨Station.listed_of_records (st' := { st with watch := watch, alerts := alerts }) hw ha hlisted, htimed,
        fun hp => ?_⟩
      obtain ⟨hnone, hpending⟩ := hempty hp
      simp only at hp ⊢
      exact ⟨List.eq_nil_of_sublist_nil (hnone ▸ ha), hd hp hpending⟩
    presence := rfl
    run := rfl }

/-- Every pending mark cleared (R53). -/
theorem StationKeeps.clearMarks :
    StationKeeps s st { st with watch := st.watch.map fun e => { e with pending := false } } := by
  refine StationKeeps.ofEntries (map_records fun _ => rfl) (List.Sublist.refl _) fun _ _ e he => ?_
  obtain ⟨x, -, rfl⟩ := List.mem_map.1 he
  rfl

/-- What a line's completion removes (R154, R155, R158). -/
theorem StationKeeps.lineDelivered (kind : TransactionKind) (page : Page) (source : LineSource) :
    StationKeeps s st (st.lineDelivered kind page source) := by
  unfold Station.lineDelivered
  split
  · split
    · exact {
        toStationFrame := .of_records (fun hc => hc) rfl
        lawful := fun ⟨hlisted, ⟨hat, _, hint⟩, hempty⟩ => ⟨hlisted, ⟨hat, fun h => (nomatch h), hint⟩, hempty⟩
        presence := rfl
        run := rfl }
    · exact StationKeeps.refl s st
  · exact StationKeeps.refl s st
  · split
    · refine StationKeeps.ofEntries (map_records fun e => ?_) (List.Sublist.refl _) fun _ hnone e he => ?_
      · split <;> rfl
      · obtain ⟨x, hx, rfl⟩ := List.mem_map.1 he
        split
        · rfl
        · exact hnone x hx
    · exact StationKeeps.refl s st
  · exact StationKeeps.ofEntries rfl List.filter_sublist fun _ hnone => hnone

/-- An entry's levels and flag replaced (R149). -/
theorem StationKeeps.updateEntry (r : Nat) (above below : Option Nat) (move : Bool) :
    StationKeeps s st (st.updateEntry r above below move) := by
  refine StationKeeps.ofEntries (alerts := st.alerts) (map_records fun e => ?_) (List.Sublist.refl _) fun _ hnone e he => ?_
  · split <;> rfl
  · obtain ⟨x, hx, rfl⟩ := List.mem_map.1 he
    split <;> exact hnone x hx

/-! ### Entries that join and leave (R17, R149 to R151) -/

/-- An entry for an occupied record joins the end of a list that has room and does not hold it (R149). -/
theorem StationKeeps.addEntry {r : Nat} (above below : Option Nat) (move : Bool)
    (hnew : ∀ e ∈ st.watch, e.record ≠ r) (hroom : st.watch.length < 12)
    (hr : s.referencesAgree → (s.record? r).isSome = true) : StationKeeps s st (st.addEntry r above below move) where
  counted hc := hc
  short _ := by simpa [Station.addEntry] using hroom
  watch e he := by
    rcases List.mem_append.1 he with he | he
    · exact Or.inl ⟨e, he, rfl⟩
    · obtain rfl := List.mem_singleton.1 he
      exact Or.inr hr
  lawful := fun ⟨⟨_, hnodup, halerts, hlisted⟩, htimed, hempty⟩ => by
    refine ⟨⟨by simpa [Station.addEntry] using hroom, ?_, halerts, fun a ha => ?_⟩, htimed, fun hp => ?_⟩
    · simp only [Station.addEntry, List.map_append, List.nodup_append]
      refine ⟨hnodup, List.nodup_singleton _, fun x hx y hy hxy => ?_⟩
      obtain ⟨e, he, rfl⟩ := List.mem_map.1 hx
      obtain rfl : y = r := by simpa using hy
      exact hnew e he hxy
    · simp only [Station.addEntry, List.map_append]
      exact List.mem_append_left _ (hlisted a ha)
    · refine ⟨(hempty hp).1, fun e he => ?_⟩
      rcases List.mem_append.1 he with he | he
      · exact (hempty hp).2 e he
      · rw [List.mem_singleton.1 he]
  presence := rfl
  run := rfl

/-- An entry leaves its list with its mark and its alert (R17, R143). -/
theorem StationKeeps.dropEntry (r : Nat) : StationKeeps s st (st.dropEntry r) where
  toStationFrame := .of_watch (fun hc => hc) (List.length_filter_le _ _) fun e he => ⟨e, List.mem_of_mem_filter he, rfl⟩
  lawful := fun ⟨⟨hlen, hnodup, halerts, hlisted⟩, htimed, hempty⟩ => by
    refine ⟨⟨(List.length_filter_le _ _).trans hlen, hnodup.sublist (List.filter_sublist.map _),
      halerts.sublist (List.filter_sublist.map _), fun a ha => ?_⟩, htimed, fun hp => ?_⟩
    · obtain ⟨ha, hne⟩ := List.mem_filter.1 ha
      obtain ⟨e, he, hrec⟩ := List.mem_map.1 (hlisted a ha)
      exact List.mem_map.2 ⟨e, List.mem_filter.2 ⟨he, by rwa [hrec]⟩, hrec⟩
    · obtain ⟨hnone, hpending⟩ := hempty hp
      exact ⟨by simp [Station.dropEntry, hnone], fun e he => hpending e (List.mem_of_mem_filter he)⟩
  presence := rfl
  run := rfl

/-- A list loaded: of occupied records, none twice, marks and alerts kept for the records in both lists (R151). -/
theorem StationKeeps.loadWatch {entries : List WatchArgs} (hlen : entries.length ≤ 12)
    (hnodup : (entries.map WatchArgs.record).Nodup) (hr : ∀ w ∈ entries, (s.record? w.record).isSome = true) :
    StationKeeps s st (st.loadWatch entries) := by
  have hrecords : (entries.map (loadedEntry st.watch)).map WatchEntry.record = entries.map WatchArgs.record := by
    rw [List.map_map]
    rfl
  exact {
    counted := fun hc => hc
    short := fun _ => by simpa [Station.loadWatch] using hlen
    watch := fun e he => by
      obtain ⟨w, hw, rfl⟩ := List.mem_map.1 he
      exact Or.inr fun _ => hr w hw
    lawful := fun ⟨⟨_, _, halerts, _⟩, htimed, hempty⟩ => by
      refine ⟨⟨by simpa [Station.loadWatch] using hlen, hrecords.symm ▸ hnodup, halerts.sublist (List.filter_sublist.map _),
        fun a ha => ?_⟩, htimed, fun hp => ?_⟩
      · obtain ⟨-, hin⟩ := List.mem_filter.1 ha
        obtain ⟨w, hw, hrec⟩ := List.any_eq_true.1 hin
        exact (congrArg (a.record ∈ ·) hrecords).mpr (List.mem_map.2 ⟨w, hw, of_decide_eq_true hrec⟩)
      · obtain ⟨hnone, hpending⟩ := hempty hp
        refine ⟨by simp [Station.loadWatch, hnone], fun e he => ?_⟩
        obtain ⟨w, -, rfl⟩ := List.mem_map.1 he
        simp only [loadedEntry, List.any_eq_false, Bool.and_eq_true, not_and]
        exact fun x hx _ => by simp [hpending x hx]
    presence := rfl
    run := rfl }

/-! ### What an event on a record does (R154 to R157) -/

/-- What an event does to an entry keeps the entry's record, and the alert it raises is the entry's. -/
def EntryEvent (f : WatchEntry → WatchEntry × Option Alert) : Prop :=
  ∀ e, (f e).1.record = e.record ∧ ∀ a, (f e).2 = some a → a.record = e.record

theorem entryEvent_lastChanged (old new : Option Nat) (moved : Bool) : EntryEvent (lastChanged old new moved) := by
  intro e
  unfold lastChanged
  split
  · exact ⟨rfl, fun a ha => by cases ha; rfl⟩
  · exact ⟨rfl, fun a ha => by cases ha; rfl⟩
  · split
    · exact ⟨rfl, fun a ha => by cases ha; rfl⟩
    · exact ⟨rfl, fun a ha => by cases ha⟩

theorem entryEvent_alertOf (reason : AlertReason) (price : Option Nat) : EntryEvent (alertOf reason price) :=
  fun _ => ⟨rfl, fun a ha => by cases ha; rfl⟩

theorem entryEvent_noAlert : EntryEvent noAlert := fun _ => ⟨rfl, fun a ha => by cases ha⟩

/-- An alert raised leaves one alert an entry (R157). -/
theorem raiseAlert_nodup {alerts : List Alert} (h : (alerts.map Alert.record).Nodup) (a : Alert) :
    ((raiseAlert alerts a).map Alert.record).Nodup := by
  unfold raiseAlert
  split
  · have hmap : (alerts.map fun x => if x.record = a.record then a else x).map Alert.record = alerts.map Alert.record := by
      rw [List.map_map]
      refine List.map_congr_left fun x _ => ?_
      simp only [Function.comp_apply]
      split
      · next hx => exact hx.symm
      · rfl
    exact hmap ▸ h
  · next hnone =>
    rw [List.map_append, List.nodup_append]
    refine ⟨h, List.nodup_singleton _, fun x hx y hy hxy => hnone ?_⟩
    obtain ⟨b, hb, rfl⟩ := List.mem_map.1 hx
    obtain rfl : y = a.record := by simpa using hy
    exact List.any_eq_true.2 ⟨b, hb, decide_eq_true hxy⟩

theorem StationKeeps.touch (r : Nat) {f : WatchEntry → WatchEntry × Option Alert} (hf : EntryEvent f) :
    StationKeeps s st (st.touch r f) := by
  unfold Station.touch
  split
  · exact StationKeeps.refl s st
  · next hpresence =>
    split
    · exact StationKeeps.refl s st
    · next e he =>
      have hrecords : (st.watch.map fun x => if x.record = r then { (f x).1 with pending := true } else x).map
          WatchEntry.record = st.watch.map WatchEntry.record := by
        refine map_records fun x => ?_
        split
        · exact (hf x).1
        · rfl
      have hmem : e.record ∈ st.watch.map WatchEntry.record := List.mem_map_of_mem (List.mem_of_find?_eq_some he)
      exact {
        toStationFrame := .of_records (fun hc => hc) hrecords
        lawful := fun ⟨⟨hlen, hnodup, halerts, hlisted⟩, htimed, _⟩ => by
          refine ⟨⟨by simpa using hlen, hrecords.symm ▸ hnodup, ?_, fun a ha => ?_⟩, htimed,
            fun hp => absurd hp hpresence⟩
          · simp only
            split
            · exact halerts
            · exact raiseAlert_nodup halerts _
          · refine (congrArg (a.record ∈ ·) hrecords).mpr ?_
            simp only at ha
            split at ha
            · exact hlisted a ha
            · next raised hraised =>
              rcases (mem_raiseAlert _ _ _).1 ha with rfl | ⟨ha, -⟩
              · exact (hf e).2 _ hraised ▸ hmem
              · exact hlisted a ha
        presence := rfl
        run := rfl }

/-! ### Modes and stream timers (R152, R153) -/

theorem clamp_range {low high : Nat} (h : low ≤ high) (value : Nat) : low ≤ clamp low high value ∧ clamp low high value ≤ high := by
  simp only [clamp]
  omega

/-- A mode stored changes mode, interval, timer and flag alone (R152). -/
theorem Station.setMode_frame (st : Station) (now : Reading) (mode : StationMode) (interval : Nat) :
    st.setMode now mode interval =
      { st with
        mode := mode
        interval := clamp 1 60 interval
        streamAt := (st.setMode now mode interval).streamAt
        streamDue := (st.setMode now mode interval).streamDue } := by
  cases mode
  case stream =>
    simp only [Station.setMode]
    split
    · next hmode => rw [← hmode]
    · split <;> rfl
  all_goals
    simp only [Station.setMode]
    split <;> rfl

/-- Table 7-4 keeps the timer in agreement with mode and presence (R153). -/
theorem StationKeeps.setMode (now : Reading) (mode : StationMode) (interval : Nat) :
    StationKeeps s st (st.setMode now mode interval) := by
  have hinterval := clamp_range (low := 1) (high := 60) (by omega) interval
  have hframe := Station.setMode_frame st now mode interval
  have hwatch : (st.setMode now mode interval).watch = st.watch := by rw [hframe]
  refine { toStationFrame := .of_records (fun hc => ?_) (congrArg _ hwatch), lawful := fun hst => ?_,
           presence := by rw [hframe], run := by rw [hframe] }
  · rw [hframe]
    exact hc
  · obtain ⟨hlisted, ⟨hat, hdue, _⟩, hempty⟩ := hst
    cases mode
    case stream =>
      simp only [Station.setMode]
      split
      · next hmode =>
        refine ⟨hlisted, ⟨?_, fun hh => ?_, hinterval⟩, hempty⟩
        · rw [← hat]
          cases st.streamAt <;> rfl
        · have := hdue hh
          simp only at this ⊢
          rw [this]
          rfl
      · split
        · next hdetached =>
          refine ⟨hlisted, ⟨?_, hdue, hinterval⟩, hempty⟩
          simpa [hdetached] using hat
        · next hpresent => exact ⟨hlisted, ⟨by simp [hpresent], fun _ => rfl, hinterval⟩, hempty⟩
    all_goals
      simp only [Station.setMode]
      split
      · exact ⟨hlisted, ⟨rfl, fun hh => (nomatch hh), hinterval⟩, hempty⟩
      · next hmode => exact ⟨hlisted, ⟨by simpa [hmode] using hat, hdue, hinterval⟩, hempty⟩

/-- A stream timer's expiry sets the flag and counts the next expiry (R153). -/
theorem StationKeeps.streamExpired {now : Reading} (h : due now st.streamAt = true) (next : Reading) :
    StationKeeps s st { st with streamDue := true, streamAt := some next } where
  toStationFrame := .of_records (fun hc => hc) rfl
  lawful := fun ⟨hlisted, ⟨hat, _, hint⟩, hempty⟩ => by
    refine ⟨hlisted, ⟨?_, fun _ => rfl, hint⟩, hempty⟩
    simp only
    rw [← hat]
    cases hs : st.streamAt with
    | none => simp [due, hs] at h
    | some _ => rfl
  presence := rfl
  run := rfl

/-! ### Stations whose presence or run changes (R121, R122, R125, R131, R132) -/

/-- A third failed delivery makes an ATTACHED station ABSENT (R132). -/
theorem Station.failDelivery_laws (ha : st.presence = .attached) (h : st.lawful) (hr : st.runAgrees) :
    st.failDelivery.lawful ∧ st.failDelivery.runAgrees := by
  obtain ⟨hlisted, ⟨hat, hdue, hint⟩, -⟩ := h
  simp only [Station.runAgrees, ha] at hr
  unfold Station.failDelivery
  by_cases hthree : 3 ≤ st.failedRun + 1
  · refine ⟨⟨hlisted, ⟨?_, hdue, hint⟩, fun hp => ?_⟩, ?_⟩
    · simpa [ha, hthree] using hat
    · simp [hthree] at hp
    · simp only [Station.runAgrees, if_pos hthree]
      omega
  · refine ⟨⟨hlisted, ⟨?_, hdue, hint⟩, fun hp => ?_⟩, ?_⟩
    · simpa [ha, hthree] using hat
    · simp [hthree, ha] at hp
    · simp only [Station.runAgrees, if_neg hthree, ha]
      omega

theorem StationFrame.failDelivery : StationFrame s st st.failDelivery :=
  .of_records (fun ⟨h1, h2, h3, h4, _⟩ => ⟨h1, h2, h3, h4, bump_le _ _⟩) rfl

/-- A READY taken from an ATTACHED station makes its run 0 (R131). -/
theorem Station.runReset_laws (ha : st.presence = .attached) (h : st.lawful) :
    Station.lawful { st with failedRun := 0 } ∧ Station.runAgrees { st with failedRun := 0 } :=
  ⟨h, by simp [Station.runAgrees, ha]⟩

/-- A station marked in a round, ATTACHED again where it claimed ABSENT, keeps its laws (R125, R126). -/
theorem Station.returned_laws (h : st.lawful) (hr : st.runAgrees) (claims served : Bool) :
    let st1 := if claims then st.returned else st
    Station.lawful { st1 with served := served } ∧ Station.runAgrees { st1 with served := served } := by
  cases claims
  · exact ⟨h, hr⟩
  · obtain ⟨hlisted, ⟨hat, hdue, hint⟩, hempty⟩ := h
    simp only [if_true, Station.returned]
    split
    · next habsent =>
      exact ⟨⟨hlisted, ⟨by simpa [habsent] using hat, hdue, hint⟩, fun hp => by cases hp⟩, Nat.zero_le _⟩
    · exact ⟨⟨hlisted, ⟨hat, hdue, hint⟩, hempty⟩, hr⟩

theorem StationFrame.returned (claims served : Bool) :
    StationFrame s st { (if claims then st.returned else st) with served := served } := by
  cases claims
  · exact .of_records (fun hc => hc) rfl
  · simp only [if_true, Station.returned]
    split <;> exact .of_records (fun hc => hc) rfl

/-- A list with every mark cleared and no alert keeps R143. -/
theorem Station.unmarked_listed (h : st.listed) {st' : Station}
    (hw : st'.watch = st.watch.map fun e => { e with pending := false }) (ha : st'.alerts = []) : st'.listed :=
  Station.listed_of_records (hw ▸ map_records fun _ => rfl) (ha ▸ List.nil_sublist _) h

theorem unmarked_pending {watch : List WatchEntry} {e : WatchEntry}
    (h : e ∈ watch.map fun e => { e with pending := false }) : e.pending = false := by
  obtain ⟨x, -, rfl⟩ := List.mem_map.1 h
  rfl

theorem Station.attached_laws (h : st.lawful) (now : Reading) : (st.attached now).lawful ∧ (st.attached now).runAgrees := by
  obtain ⟨hlisted, ⟨-, -, hint⟩, -⟩ := h
  refine ⟨⟨Station.unmarked_listed hlisted rfl rfl, ⟨?_, ?_, hint⟩, fun hp => by cases hp⟩, Nat.zero_le _⟩ <;>
    by_cases hs : st.mode = .stream <;> simp [Station.attached, hs]

theorem Station.detached_laws (h : st.lawful) : st.detached.lawful ∧ st.detached.runAgrees := by
  obtain ⟨hlisted, ⟨-, -, hint⟩, -⟩ := h
  exact ⟨⟨Station.unmarked_listed hlisted rfl rfl, ⟨by simp [Station.detached], fun hh => (nomatch hh), hint⟩,
    fun _ => ⟨rfl, fun _ he => unmarked_pending he⟩⟩, rfl⟩

theorem StationFrame.attached (now : Reading) : StationFrame s st (st.attached now) :=
  .of_records (fun hc => hc) (map_records fun _ => rfl)

theorem StationFrame.detached : StationFrame s st st.detached :=
  .of_records (fun hc => hc) (map_records fun _ => rfl)

/-- The run that a restart leaves goes with the presence state (R141, R142). -/
theorem restartRun_agrees {st' : Station} (hp : st'.presence = st.presence) (hr : st'.failedRun = restartRun st.presence) :
    st'.runAgrees := by
  unfold Station.runAgrees
  rw [hp, hr]
  cases st.presence <;> simp [restartRun]

theorem Station.keptRestart_laws (h : st.lawful) (now : Reading) :
    (st.keptRestart now).lawful ∧ (st.keptRestart now).runAgrees := by
  obtain ⟨hlisted, ⟨-, -, hint⟩, -⟩ := h
  refine ⟨⟨Station.unmarked_listed hlisted rfl rfl, ⟨?_, fun hh => (nomatch hh), hint⟩,
    fun _ => ⟨rfl, fun _ he => unmarked_pending he⟩⟩, restartRun_agrees (st := st) rfl rfl⟩
  by_cases hruns : st.mode = .stream ∧ st.presence ≠ .detached
  · simp [Station.keptRestart, hruns.1, hruns.2]
  · simp only [Station.keptRestart, if_neg hruns, Option.isSome_none]
    simpa using not_and.1 hruns

theorem StationFrame.keptRestart (now : Reading) : StationFrame s st (st.keptRestart now) :=
  .of_records (fun _ => ⟨Nat.zero_le _, Nat.zero_le _, Nat.zero_le _, Nat.zero_le _, Nat.zero_le _⟩) (map_records fun _ => rfl)

theorem Station.clearedRestart_laws : st.clearedRestart.lawful ∧ st.clearedRestart.runAgrees :=
  ⟨⟨⟨Nat.zero_le _, List.nodup_nil, List.nodup_nil, fun _ ha => (nomatch ha)⟩,
    ⟨rfl, fun hh => (nomatch hh), by show 1 ≤ 10; omega, by show 10 ≤ 60; omega⟩, fun _ => ⟨rfl, fun _ he => (nomatch he)⟩⟩,
    restartRun_agrees (st := st) rfl rfl⟩

theorem StationFrame.clearedRestart : StationFrame s st st.clearedRestart where
  counted _ := ⟨Nat.zero_le _, Nat.zero_le _, Nat.zero_le _, Nat.zero_le _, Nat.zero_le _⟩
  short _ := Nat.zero_le _
  watch _ he := (nomatch he)

end

end Sys2Proof.Machine
end


section
/-! PROOF. The desk line: transactions that begin, run and end, claim rounds, suspension and resumption, the scan and the
restarts leave line state, transaction and slot in agreement, and no page past its twelfth line (R123, R124, R129 to R139). -/

namespace Sys2Proof.Machine

section
variable {s : State}

/-! ### Pages (R145, R155, R158) -/

/-- A page opened with its fixed set has twelve lines at most (R145). -/
theorem State.openPage_room (hl : s.desk.listsShort) (hr : s.recordsLawful) (n : Nat) (page : Page) :
    (s.openPage n page).room ≤ 12 := by
  cases page with
  | status _ _ _ _ => exact Nat.zero_le _
  | quote r left => simp [State.openPage, Page.room]
  | recent r left =>
    simp only [State.openPage, Page.room]
    split
    · exact Nat.zero_le _
    · next q hq =>
      have : q.ring.length ≤ 4 := (hr.1 _ (mem_of_tableGet hq)).1.1
      simp only [List.length_reverse, List.length_map]
      omega
  | watch left =>
    simp only [State.openPage, Page.room, List.length_map, State.watchOf]
    split
    · exact Nat.zero_le _
    · next st hst => exact hl st (List.mem_of_getElem? hst)
  | changes sent lines => exact Nat.sub_le _ _
  | alerts sent => exact Nat.sub_le _ _

/-! ### The line, with the station records as they stand -/

/-- A change that speaks of line, transaction and slot no more than before, station records as they stand. -/
theorem DeskKeeps.ofLine {d : Desk} (hs : d.stations = s.desk.stations)
    (hl : s.desk.lineLawful → d.transactionSound ∧ d.slotSound)
    (hp : s.desk.listsShort → s.recordsLawful → s.desk.pagesBounded → d.pagesBounded) : DeskKeeps s d := by
  refine DeskKeeps.ofPointwise (hs ▸ rfl) (fun n st hst => ?_) (fun _ h => hl h) hp
  have hmem := List.mem_of_getElem? hst
  exact ⟨st, hs ▸ hst, StationFrame.refl s st, fun hlawful hline => ⟨hlawful.2 st hmem, hline.1 st hmem⟩⟩

/-- Signals, deadlines, marks of the arbiter and the scan are in no law. -/
theorem DeskKeeps.ofSame {d : Desk} (hs : d.stations = s.desk.stations) (hline : d.line = s.desk.line)
    (ht : d.transaction = s.desk.transaction) (hslot : d.slot = s.desk.slot) : DeskKeeps s d := by
  refine DeskKeeps.ofLine hs (fun h => ⟨?_, ?_⟩) fun _ _ hp => ?_
  · simpa only [Desk.transactionSound, Desk.isAttached, hs, hline, ht, hslot] using h.2.1
  · simpa only [Desk.slotSound, Desk.isAttached, hs, hline, ht, hslot] using h.2.2
  · simpa only [Desk.pagesBounded, ht, hslot] using hp

/-- A suspended page stays in its slot while the line rests with no transaction and no claim round (R139). -/
theorem Desk.slotSound_rest {d d' : Desk} (hs : d'.stations = d.stations) (ht : d'.transaction = none)
    (hclaim : d'.line ≠ .claim) (hslot : d'.slot = d.slot) (h : d.slotSound) : d'.slotSound := by
  cases hp : d.slot with
  | none => exact Desk.slotSound_none (hslot.trans hp)
  | some p =>
    obtain ⟨hattached, hcausing, -, -⟩ := (Desk.slotSound_some hp).1 h
    exact (Desk.slotSound_some (hslot.trans hp)).2
      ⟨(Desk.isAttached_congr hs _).2 hattached, hcausing, hclaim, fun t htt => by simp [ht] at htt⟩

/-- The pages of a line that rests are the suspended one's alone. -/
theorem Desk.pagesBounded_rest {d d' : Desk} (ht : d'.transaction = none) (hslot : d'.slot = d.slot)
    (h : d.pagesBounded) : d'.pagesBounded :=
  ⟨fun t _ htt => by simp [ht] at htt, fun t _ htt => by simp [ht] at htt, fun p hp => h.2.2 p (hslot ▸ hp)⟩

/-- The line comes to rest, its transaction over (R123, R136). -/
theorem DeskKeeps.ofRest {d : Desk} (hs : d.stations = s.desk.stations) (ht : d.transaction = none)
    (hline : restingLine d.line = true) (hclaim : d.line ≠ .claim) (hslot : d.slot = s.desk.slot) : DeskKeeps s d :=
  DeskKeeps.ofLine hs
    (fun h => ⟨(Desk.transactionSound_none ht).2 hline, Desk.slotSound_rest hs ht hclaim hslot h.2.2⟩)
    fun _ _ hp => Desk.pagesBounded_rest ht hslot hp

/-- The line freed rests, FREE or CLEARING, and nothing but the line, its transaction and its deadlines changes (R123,
R136). -/
theorem State.freeLine_frame (s : State) :
    s.freeLine = { s with desk := s.freeLine.desk } ∧ s.freeLine.desk.stations = s.desk.stations ∧
      s.freeLine.desk.transaction = none ∧ restingLine s.freeLine.desk.line = true ∧ s.freeLine.desk.line ≠ .claim ∧
      s.freeLine.desk.slot = s.desk.slot := by
  rw [State.freeLine_eq]
  unfold State.lineFreed
  simp only
  split
  · exact ⟨rfl, rfl, rfl, rfl, (nomatch ·), rfl⟩
  · split <;> exact ⟨rfl, rfl, rfl, rfl, (nomatch ·), rfl⟩

theorem Keeps.freeLine : Keeps s s.freeLine := by
  obtain ⟨hframe, hs, ht, hline, hclaim, hslot⟩ := State.freeLine_frame s
  rw [hframe]
  exact Keeps.ofDesk (DeskKeeps.ofRest hs ht hline hclaim hslot)

/-- The transaction goes on: with the same station, in a phase that has one, and a suspension only where the slot is free
(R128 to R131, R138). -/
theorem DeskKeeps.ofTransaction {d : Desk} {t t' : Transaction} (hs : d.stations = s.desk.stations)
    (hslot : d.slot = s.desk.slot) (ht : s.desk.transaction = some t) (hd : d.transaction = some t')
    (hstation : t'.station = t.station) (hline : restingLine s.desk.line = false → restingLine d.line = false)
    (hsuspend : ∀ causing, t'.output = .suspending causing →
      t.output = .suspending causing ∨ (s.desk.slot = none ∧ causing ≠ t.station))
    (hpage : s.desk.listsShort → s.recordsLawful → s.desk.pagesBounded →
      ∀ page, t'.page = some page → t'.nextLine + page.room ≤ 13)
    (hnumber : s.desk.listsShort → s.recordsLawful → s.desk.pagesBounded →
      ∀ line, t'.output = .line line → line.number ≤ 12) : DeskKeeps s d := by
  refine DeskKeeps.ofLine hs (fun h => ?_) fun hl hr hp => ⟨?_, ?_, fun p hp' => hp.2.2 p (hslot ▸ hp')⟩
  · obtain ⟨hresting, hattached, hsuspending⟩ := (Desk.transactionSound_some ht).1 h.2.1
    have hnot := hline hresting
    refine ⟨(Desk.transactionSound_some hd).2 ⟨hnot, ?_, fun causing hc => ?_⟩, ?_⟩
    · rw [Desk.isAttached_congr hs, hstation]
      exact hattached
    · rw [hslot, hstation]
      rcases hsuspend causing hc with hc | hc
      · exact hsuspending causing hc
      · exact hc
    · cases hp : s.desk.slot with
      | none => exact Desk.slotSound_none (hslot.trans hp)
      | some p =>
        obtain ⟨hattached, hcausing, -, hother⟩ := (Desk.slotSound_some hp).1 h.2.2
        refine (Desk.slotSound_some (hslot.trans hp)).2
          ⟨(Desk.isAttached_congr hs _).2 hattached, hcausing, fun hc => ?_, fun u hu => ?_⟩
        · simp [hc, restingLine] at hnot
        · obtain rfl : t' = u := Option.some.inj (hd.symm.trans hu)
          exact hstation ▸ hother t ht
  · intro u page hu hpg
    obtain rfl : t' = u := Option.some.inj (hd.symm.trans hu)
    exact hpage hl hr hp page hpg
  · intro u line hu ho
    obtain rfl : t' = u := Option.some.inj (hd.symm.trans hu)
    exact hnumber hl hr hp line ho

/-- The transaction's window, a request held and the line's phase change, its page and what it sends do not. -/
theorem DeskKeeps.ofPhase {d : Desk} {t : Transaction} {window : Option Reading} {held : Option LookupRequest}
    (hs : d.stations = s.desk.stations) (hslot : d.slot = s.desk.slot) (ht : s.desk.transaction = some t)
    (hd : d.transaction = some { t with window := window, held := held })
    (hline : restingLine s.desk.line = false → restingLine d.line = false) : DeskKeeps s d :=
  DeskKeeps.ofTransaction hs hslot ht hd rfl hline (fun _ hc => Or.inl hc) (fun _ _ hp page hpage => hp.1 t page ht hpage)
    fun _ _ hp line hline => hp.2.1 t line ht hline

/-- A page begun: its header is line 0 and its fixed set within the twelve (R129, R145). -/
theorem Keeps.startPage {t u : Transaction} (hu : s.desk.transaction = some u) (hstation : t.station = u.station)
    {line : LineState} (hline : restingLine line = false) (page : Page) : Keeps s (s.startPage t line page) := by
  refine Keeps.ofDesk (DeskKeeps.ofTransaction (t := u) rfl rfl hu rfl hstation (fun _ => hline) (fun _ hc => (nomatch hc))
    (fun hl hr _ opened ho => ?_) (fun _ _ _ header hh => ?_))
  · have hroom := State.openPage_room hl hr t.station page
    obtain rfl : s.openPage t.station page = opened := Option.some.inj ho
    simp only
    omega
  · obtain rfl := (Output.line.injEq _ _).mp hh
    exact Nat.zero_le _

theorem Keeps.replyWith {t u : Transaction} (hu : s.desk.transaction = some u) (hstation : t.station = u.station)
    (page : Page) : Keeps s (s.replyWith t page) :=
  Keeps.startPage hu hstation rfl page

/-- The next line is numbered within the twelve, and the page left has room for the rest (R129, R145). -/
theorem Keeps.sendNext {t : Transaction} {page : Page} (ht : s.desk.transaction = some t) (hpage : t.page = some page) :
    Keeps s (s.sendNext t page) := by
  unfold State.sendNext
  split
  · exact Keeps.ofDesk (DeskKeeps.ofTransaction rfl rfl ht rfl rfl id (fun _ hc => (nomatch hc))
      (fun _ _ hp p hpp => hp.1 t p ht hpp) fun _ _ _ _ hh => (nomatch hh))
  · next fields source page' hitem =>
    have hroom := State.nextItem_room hitem
    refine Keeps.ofDesk (DeskKeeps.ofTransaction rfl rfl ht rfl rfl id (fun _ hc => (nomatch hc)) (fun _ _ hp p hpp => ?_)
      fun _ _ hp line hh => ?_) <;> have hbound := hp.1 t page ht hpage
    · obtain rfl : page' = p := Option.some.inj hpp
      simp only at hroom ⊢
      omega
    · obtain rfl := (Output.line.injEq _ _).mp hh
      simp only [State.renderLine] at hroom ⊢
      omega

/-- A line gap: END, a break, a suspension for another station, or the next line (R129, R130, R138). -/
theorem Keeps.lineGap {t : Transaction} {page : Page} (ht : s.desk.transaction = some t) (hpage : t.page = some page) :
    Keeps s (s.lineGap t page) := by
  unfold State.lineGap
  split
  · exact Keeps.sendNext ht hpage
  · split
    · exact Keeps.ofDesk (DeskKeeps.ofTransaction rfl rfl ht rfl rfl id (fun _ hc => (nomatch hc))
        (fun _ _ hp p hpp => hp.1 t p ht hpp) fun _ _ _ _ hh => (nomatch hh))
    · split
      · next causing hcausing =>
        refine Keeps.ofDesk (DeskKeeps.ofTransaction rfl rfl ht rfl rfl id (fun c hc => Or.inr ?_)
          (fun _ _ hp p hpp => hp.1 t p ht hpp) fun _ _ _ _ hh => (nomatch hh))
        obtain rfl : causing = c := (Output.suspending.injEq _ _).mp hc
        split at hcausing
        · next hfree =>
          obtain ⟨-, st, -, htest⟩ := firstInRound_mem hcausing
          simp only [Bool.and_eq_true, decide_eq_true_eq] at htest
          exact ⟨hfree.2, htest.1.1⟩
        · cases hcausing
      · exact Keeps.sendNext ht hpage

/-! ### Station records changed on the way -/

theorem Keeps.modifyStation {n : Nat} {f : Station → Station}
    (h : ∀ st, s.desk.stations[n]? = some st → StationKeeps s st (f st)) : Keeps s (s.modifyStation n f) :=
  Keeps.ofDesk (DeskKeeps.ofModify h)

/-- A fault counted and the line freed (R134). -/
theorem Keeps.abort {count : Station → Station} (h : ∀ st, StationKeeps s st (count st)) : Keeps s (s.abort count) := by
  unfold State.abort
  split
  · exact Keeps.refl s
  · exact (Keeps.modifyStation fun st _ => h st).trans Keeps.freeLine

theorem Keeps.strayFrame : Keeps s s.strayFrame := Keeps.abort fun _ => StationKeeps.countPhaseFault

/-- A READY taken makes the run of the station in transaction 0; that station is ATTACHED (R123, R131). -/
theorem Keeps.runReset {t : Transaction} (ht : s.desk.transaction = some t) :
    Keeps s (s.modifyStation t.station fun st => { st with failedRun := 0 }) := by
  have attached : ∀ n, s.desk.isAttached n →
      (s.desk.modifyStation t.station fun st => { st with failedRun := 0 }).isAttached n := fun n =>
    Desk.isAttached_of fun st hst => by
      rw [Desk.modifyStation_get, hst]
      split <;> exact ⟨_, rfl, rfl⟩
  refine Keeps.ofDesk (DeskKeeps.ofPointwise (Desk.modifyStation_length _ _ _) (fun n st hst => ?_) (fun _ hline => ?_)
    fun _ _ hp => hp)
  · have hmem := List.mem_of_getElem? hst
    rw [Desk.modifyStation_get, hst]
    split
    · next hn =>
      refine ⟨_, rfl, .of_records (fun hc => hc) rfl, fun hs hline => ?_⟩
      obtain ⟨-, ⟨x, hx, hpresence⟩, -⟩ := (Desk.transactionSound_some ht).1 hline.2.1
      obtain rfl : st = x := by rw [← hn, hst] at hx; exact Option.some.inj hx
      exact Station.runReset_laws hpresence (hs.2 st hmem)
    · exact ⟨st, rfl, StationFrame.refl s st, fun hs hline => ⟨hs.2 st hmem, hline.1 st hmem⟩⟩
  · obtain ⟨-, htransaction, hslot⟩ := hline
    obtain ⟨hrest, hattached, hsuspending⟩ := (Desk.transactionSound_some ht).1 htransaction
    refine ⟨(Desk.transactionSound_some (d := s.desk.modifyStation t.station _) ht).2
      ⟨hrest, attached _ hattached, hsuspending⟩, ?_⟩
    cases hp : s.desk.slot with
    | none => exact Desk.slotSound_none hp
    | some p =>
      obtain ⟨hattached, hother⟩ := (Desk.slotSound_some hp).1 hslot
      exact (Desk.slotSound_some (d := s.desk.modifyStation t.station _) hp).2 ⟨attached _ hattached, hother⟩

/-- A delivery that fails frees the line; its station, ATTACHED till then, may become ABSENT, and the suspended page is
another's (R132, R139). -/
theorem Keeps.deliveryFailed {t : Transaction} (ht : s.desk.transaction = some t) :
    Keeps s (s.modifyStation t.station Station.failDelivery).freeLine := by
  obtain ⟨hframe, hs, hnone, hrest, hclaim, hslot⟩ :=
    State.freeLine_frame (s.modifyStation t.station Station.failDelivery)
  generalize (s.modifyStation t.station Station.failDelivery).freeLine.desk = d at *
  rw [hframe]
  have hget (n : Nat) : d.stations[n]? = if n = t.station then s.desk.stations[n]?.map Station.failDelivery
      else s.desk.stations[n]? := by
    rw [hs]
    exact Desk.modifyStation_get _ _ _ _
  refine Keeps.ofDesk (s := s) (DeskKeeps.ofPointwise ?_ (fun n st hst => ?_) (fun _ hline => ?_) fun _ _ hp => ?_)
  · rw [hs]
    exact Desk.modifyStation_length _ _ _
  · have hmem := List.mem_of_getElem? hst
    rw [hget, hst]
    split
    · next hn =>
      refine ⟨_, rfl, StationFrame.failDelivery, fun hlawful hline => ?_⟩
      obtain ⟨-, ⟨x, hx, hpresence⟩, -⟩ := (Desk.transactionSound_some ht).1 hline.2.1
      obtain rfl : st = x := by rw [← hn, hst] at hx; exact Option.some.inj hx
      exact Station.failDelivery_laws hpresence (hlawful.2 st hmem) (hline.1 st hmem)
    · exact ⟨st, rfl, StationFrame.refl s st, fun hlawful hline => ⟨hlawful.2 st hmem, hline.1 st hmem⟩⟩
  · refine ⟨(Desk.transactionSound_none hnone).2 hrest, ?_⟩
    cases hp : s.desk.slot with
    | none => exact Desk.slotSound_none (hslot.trans hp)
    | some p =>
      obtain ⟨⟨x, hx, hpresence⟩, hcausing, -, hother⟩ := (Desk.slotSound_some hp).1 hline.2.2
      refine (Desk.slotSound_some (hslot.trans hp)).2
        ⟨⟨x, ?_, hpresence⟩, hcausing, hclaim, fun u hu => by simp [hnone] at hu⟩
      rw [hget, if_neg (hother t ht).symm]
      exact hx
  · exact Desk.pagesBounded_rest hnone hslot hp

/-! ### Transactions and rounds that begin (R124 to R126, R131, R139) -/

/-- A transaction begun by RESELECT or RESUME with an ATTACHED station that the suspended page is not of. -/
theorem Keeps.reselect {n : Nat} {kind : TransactionKind} {page : Page} {nextLine : Nat}
    (ha : s.desk.lineLawful → s.desk.isAttached n)
    (hslot : s.desk.lineLawful → ∀ p, s.desk.slot = some p → n ≠ p.station)
    (hroom : s.desk.pagesBounded → nextLine + page.room ≤ 13) : Keeps s (s.reselect n kind page nextLine) := by
  have hbegun : (s.reselect n kind page nextLine).desk.transaction = some
      { station := n, kind := kind, page := some page, nextLine := nextLine, output := .nothing,
        window := some s.answerWindowEnd, held := none } := rfl
  refine Keeps.ofDesk (d := (s.reselect n kind page nextLine).desk)
    (DeskKeeps.ofLine rfl (fun h => ⟨?_, ?_⟩) fun _ _ hp => ⟨?_, ?_, hp.2.2⟩)
  · exact (Desk.transactionSound_some hbegun).2 ⟨rfl, ha h, fun _ hc => (nomatch hc)⟩
  · cases hp : s.desk.slot with
    | none => exact Desk.slotSound_none hp
    | some p =>
      obtain ⟨hattached, hcausing, -, -⟩ := (Desk.slotSound_some hp).1 h.2.2
      refine (Desk.slotSound_some (d := (s.reselect n kind page nextLine).desk) hp).2
        ⟨hattached, hcausing, (nomatch ·), fun t ht => ?_⟩
      rw [← Option.some.inj (hbegun.symm.trans ht)]
      exact hslot h p hp
  · intro t p ht hp'
    rw [← Option.some.inj (hbegun.symm.trans ht)] at hp' ⊢
    obtain rfl : page = p := Option.some.inj hp'
    exact hroom hp
  · intro t line ht ho
    rw [← Option.some.inj (hbegun.symm.trans ht)] at ho
    cases ho

/-- The arbiter's own marks are in no law. -/
theorem Keeps.arbiterMarks (lastAlert lastRoutine : Nat) (alternation : Bool) :
    Keeps s { s with desk := { s.desk with lastAlert := lastAlert, lastRoutine := lastRoutine, alternation := alternation } } :=
  Keeps.ofDesk (DeskKeeps.ofSame rfl rfl rfl rfl)

theorem Keeps.startAlert {n : Nat} (ha : s.desk.lineLawful → s.desk.isAttached n)
    (hslot : s.desk.lineLawful → ∀ p, s.desk.slot = some p → n ≠ p.station) : Keeps s (s.startAlert n) :=
  (Keeps.arbiterMarks n s.desk.lastRoutine s.desk.alternation).trans
    (Keeps.reselect (s := { s with desk := { s.desk with lastAlert := n } }) ha hslot fun _ => by decide)

theorem Keeps.startRoutine {n : Nat} (ha : s.desk.isAttached n) (hslot : s.desk.slot = none) :
    Keeps s (s.startRoutine n) := by
  unfold State.startRoutine
  split
  · exact Keeps.refl s
  · next st hst =>
    refine (Keeps.arbiterMarks s.desk.lastAlert n false).trans
      (Keeps.reselect (s := { s with desk := { s.desk with lastRoutine := n, alternation := false } }) (fun _ => ha)
        (fun _ p hp => by simp [hslot] at hp) fun _ => ?_)
    cases st.mode <;> decide

/-- A claim round begins with the line FREE and the slot empty (R124). -/
theorem Keeps.startClaim (hline : s.desk.line = .free) (hslot : s.desk.slot = none) : Keeps s s.startClaim := by
  refine Keeps.ofDesk (DeskKeeps.ofLine rfl (fun h => ⟨?_, Desk.slotSound_none hslot⟩) fun _ _ hp => hp)
  cases ht : s.desk.transaction with
  | none => exact (Desk.transactionSound_none (d := { s.desk with line := .claim, alternation := true, answered := [] }) ht).2 rfl
  | some t =>
    have := ((Desk.transactionSound_some ht).1 h.2.1).1
    simp [hline, restingLine] at this

/-- A suspended page resumed leaves the slot for the line (R139). -/
theorem Keeps.startResumption {p : SuspendedPage} (hp : s.desk.slot = some p) : Keeps s (s.startResumption p) := by
  have hbegun : (s.startResumption p).desk.transaction = some
      { station := p.station, kind := .resumption p.reply, page := some p.page, nextLine := p.nextLine, output := .nothing,
        window := some s.answerWindowEnd, held := none } := rfl
  refine Keeps.ofDesk (d := (s.startResumption p).desk) (DeskKeeps.ofLine rfl (fun h => ⟨?_, Desk.slotSound_none rfl⟩)
    fun _ _ hpages => ⟨?_, ?_, fun q hq => (nomatch hq)⟩)
  · obtain ⟨hattached, -⟩ := (Desk.slotSound_some hp).1 h.2.2
    exact (Desk.transactionSound_some hbegun).2 ⟨rfl, hattached, fun _ hc => (nomatch hc)⟩
  · intro t page ht hpage
    rw [← Option.some.inj (hbegun.symm.trans ht)] at hpage ⊢
    obtain rfl : p.page = page := Option.some.inj hpage
    exact hpages.2.2 p hp
  · intro t line ht ho
    rw [← Option.some.inj (hbegun.symm.trans ht)] at ho
    cases ho

/-- The arbiter starts what R124 lets start. -/
theorem Keeps.arbiterStarts (hline : s.desk.line = .free) (hslot : s.desk.slot = none) : Keeps s s.alertOrLater := by
  have attached : ∀ {n st}, s.desk.stations[n]? = some st → st.presence = .attached → s.desk.isAttached n :=
    fun hst hp => ⟨_, hst, hp⟩
  unfold State.alertOrLater
  split
  · next n hn =>
    obtain ⟨-, st, hst, htest⟩ := firstInRound_mem hn
    exact Keeps.startAlert (fun _ => attached hst ((Station.alerting_iff st).1 htest).1) fun _ p hp => by simp [hslot] at hp
  · unfold State.claimOrRoutine
    split
    · split
      · exact Keeps.startClaim hline hslot
      · exact Keeps.refl s
    · next n hn =>
      obtain ⟨-, st, hst, htest⟩ := firstInRound_mem hn
      split
      · exact Keeps.startClaim hline hslot
      · exact Keeps.startRoutine (attached hst ((Station.routineDue_iff st).1 htest).1) hslot

/-- A round's selection: the claimant selected is ATTACHED after it, and no page is suspended beside a round (R124 to
R126). -/
theorem Keeps.select {n : Nat} (hline : s.desk.line = .claim) (hn : s.desk.isClaimant n = true) (clearAll : Bool) :
    Keeps s (s.select n clearAll) := by
  have hget {m : Nat} {st : Station} (hst : s.desk.stations[m]? = some st) :
      (s.desk.roundMarked n clearAll)[m]? = some { (if s.desk.isClaimant m then st.returned else st) with
        served := if m = n then true else if clearAll then false else
          (if s.desk.isClaimant m then st.returned else st).served } := by
    simp [Desk.roundMarked, hst]
  refine Keeps.ofDesk (DeskKeeps.ofPointwise (by simp [Desk.roundMarked]) (fun m st hst => ?_) (fun _ h => ⟨?_, ?_⟩)
    fun _ _ hp => ⟨fun t _ ht hp' => ?_, fun t _ ht ho => ?_, hp.2.2⟩)
  · have hmem := List.mem_of_getElem? hst
    exact ⟨_, hget hst, StationFrame.returned _ _, fun hs hl => Station.returned_laws (hs.2 st hmem) (hl.1 st hmem) _ _⟩
  · refine (Desk.transactionSound_some rfl).2 ⟨rfl, ?_, fun _ hc => (nomatch hc)⟩
    obtain ⟨st, hst, -, hpresence⟩ := (Desk.isClaimant_eq_true_iff _ _).1 hn
    refine ⟨_, hget hst, ?_⟩
    simp only [hn, if_true, Station.returned]
    split
    · rfl
    · next habsent => cases hp : st.presence <;> simp_all
  · cases hp : s.desk.slot with
    | none => exact Desk.slotSound_none hp
    | some p => exact absurd hline ((Desk.slotSound_some hp).1 h.2.2).2.2.1
  · rw [← Option.some.inj ht] at hp'
    cases hp'
  · rw [← Option.some.inj ht] at ho
    cases ho

/-! ### Suspension (R138) -/

/-- The page that SUSPEND's completion puts into the slot (R138). -/
def Transaction.suspension (t : Transaction) (reply : Bool) (page : Page) (causing : Nat) : SuspendedPage :=
  { station := t.station, reply := reply, page := page, nextLine := t.nextLine, causing := causing, started := false }

/-- SUSPEND's completion: the page goes to the slot, and the line is freed. -/
theorem Keeps.suspended {t : Transaction} {page : Page} {causing : Nat} (ht : s.desk.transaction = some t)
    (hpage : t.page = some page) (ho : t.output = .suspending causing) (reply : Bool) :
    Keeps s (State.freeLine { s with desk := { s.desk with slot := some (t.suspension reply page causing) } }) := by
  obtain ⟨hframe, hs, hnone, hrest, hclaim, hslot⟩ :=
    State.freeLine_frame { s with desk := { s.desk with slot := some (t.suspension reply page causing) } }
  rw [hframe]
  refine Keeps.ofDesk (s := s) (DeskKeeps.ofLine hs (fun h => ?_) fun _ _ hp => ?_)
  · obtain ⟨-, hattached, hsuspending⟩ := (Desk.transactionSound_some ht).1 h.2.1
    exact ⟨(Desk.transactionSound_none hnone).2 hrest, (Desk.slotSound_some hslot).2
      ⟨(Desk.isAttached_congr hs _).2 hattached, (hsuspending causing ho).2, hclaim, fun u hu => absurd (hnone.symm.trans hu) (nomatch ·)⟩⟩
  · refine ⟨fun u _ hu => absurd (hnone.symm.trans hu) (nomatch ·), fun u _ hu => absurd (hnone.symm.trans hu) (nomatch ·), fun p hp' => ?_⟩
    rw [hslot] at hp'
    rw [← Option.some.inj hp']
    exact hp.1 t page ht hpage

/-! ### Pages that lose lines, and lines marked again (R17, R150, R154) -/

/-- A transaction that keeps its station and numbers, and whose page has no more lines than before. -/
structure Transaction.Narrowed (t t' : Transaction) : Prop where
  station : t'.station = t.station
  nextLine : t'.nextLine = t.nextLine
  suspending : ∀ causing, t'.output = .suspending causing → t.output = .suspending causing
  number : ∀ l', t'.output = .line l' → ∃ l, t.output = .line l ∧ l'.number = l.number
  page : ∀ p', t'.page = some p' → ∃ p, t.page = some p ∧ p'.room ≤ p.room

/-- A suspended page that keeps its stations and number, with no more lines than before. -/
structure SuspendedPage.Narrowed (p p' : SuspendedPage) : Prop where
  station : p'.station = p.station
  causing : p'.causing = p.causing
  nextLine : p'.nextLine = p.nextLine
  page : p'.page.room ≤ p.page.room

theorem SuspendedPage.Narrowed.refl (p : SuspendedPage) : SuspendedPage.Narrowed p p := ⟨rfl, rfl, rfl, le_rfl⟩

/-- Pages on the line and in the slot narrowed, or the suspended one discarded. -/
theorem DeskKeeps.ofNarrowed {d : Desk} (hs : d.stations = s.desk.stations) (hline : d.line = s.desk.line)
    (hnone : d.transaction = none → s.desk.transaction = none)
    (ht : ∀ t', d.transaction = some t' → ∃ t, s.desk.transaction = some t ∧ t.Narrowed t')
    (hslot : ∀ p', d.slot = some p' → ∃ p, s.desk.slot = some p ∧ p.Narrowed p') : DeskKeeps s d := by
  have hempty (h : s.desk.slot = none) : d.slot = none := by
    cases hp : d.slot with
    | none => rfl
    | some p =>
      obtain ⟨q, hq, -⟩ := hslot p hp
      simp [h] at hq
  refine DeskKeeps.ofLine hs (fun h => ⟨?_, ?_⟩) fun _ _ hp => ⟨fun t' page ht' hpage => ?_, fun t' line ht' ho => ?_,
    fun p' hp' => ?_⟩
  · cases ht' : d.transaction with
    | none => exact (Desk.transactionSound_none ht').2 (hline ▸ (Desk.transactionSound_none (hnone ht')).1 h.2.1)
    | some t' =>
      obtain ⟨t, htt, hnarrow⟩ := ht t' ht'
      obtain ⟨hrest, hattached, hsuspending⟩ := (Desk.transactionSound_some htt).1 h.2.1
      refine (Desk.transactionSound_some ht').2 ⟨hline ▸ hrest, ?_, fun causing hc => ?_⟩
      · rw [Desk.isAttached_congr hs, hnarrow.station]
        exact hattached
      · obtain ⟨hfree, hne⟩ := hsuspending causing (hnarrow.suspending causing hc)
        exact ⟨hempty hfree, hnarrow.station ▸ hne⟩
  · cases hp' : d.slot with
    | none => exact Desk.slotSound_none hp'
    | some p' =>
      obtain ⟨p, hpp, hnarrow⟩ := hslot p' hp'
      obtain ⟨hattached, hcausing, hclaim, hother⟩ := (Desk.slotSound_some hpp).1 h.2.2
      refine (Desk.slotSound_some hp').2 ⟨?_, ?_, hline ▸ hclaim, fun t' ht' => ?_⟩
      · rw [Desk.isAttached_congr hs, hnarrow.station]
        exact hattached
      · rwa [hnarrow.causing, hnarrow.station]
      · obtain ⟨t, htt, hn⟩ := ht t' ht'
        rw [hn.station, hnarrow.station]
        exact hother t htt
  · obtain ⟨t, htt, hnarrow⟩ := ht t' ht'
    obtain ⟨old, hold, hroom⟩ := hnarrow.page page hpage
    have := hp.1 t old htt hold
    rw [hnarrow.nextLine]
    omega
  · obtain ⟨t, htt, hnarrow⟩ := ht t' ht'
    obtain ⟨l, hl, hnumber⟩ := hnarrow.number line ho
    exact hnumber ▸ hp.2.1 t l htt hl
  · obtain ⟨p, hpp, hnarrow⟩ := hslot p' hp'
    have := hp.2.2 p hpp
    have := hnarrow.page
    rw [hnarrow.nextLine]
    omega

/-- Some pages lose lines (R17, R150). -/
theorem Keeps.mapPages (ofStation : Nat → Bool) {f : Page → Page} (hf : ∀ page, (f page).room ≤ page.room) :
    Keeps s { s with desk := s.desk.mapPages ofStation f } := by
  refine Keeps.ofDesk (DeskKeeps.ofNarrowed rfl rfl (fun h => ?_) (fun t' ht' => ?_) fun p' hp' => ?_)
  · simpa [Desk.mapPages] using h
  · obtain ⟨t, ht, rfl⟩ := Desk.mapPages_transaction ht'
    refine ⟨t, ht, ⟨rfl, rfl, fun _ h => h, fun l hl => ⟨l, hl, rfl⟩, fun p hp => ?_⟩⟩
    simp only at hp
    split at hp
    · obtain ⟨old, hold, rfl⟩ := Option.map_eq_some_iff.1 hp
      exact ⟨old, hold, hf old⟩
    · exact ⟨p, hp, le_rfl⟩
  · obtain ⟨p, hp, rfl⟩ := Desk.mapPages_slot hp'
    refine ⟨p, hp, ⟨rfl, rfl, rfl, ?_⟩⟩
    simp only
    split
    · exact hf _
    · exact le_rfl

/-- An event on a record, at every station and for the line being sent (R154, R156). -/
theorem Keeps.touch (r : Nat) {f : WatchEntry → WatchEntry × Option Alert} (hf : EntryEvent f) :
    Keeps s { s with desk := s.desk.touch r f } := by
  have hstations : Keeps s { s with desk := { s.desk with stations := s.desk.stations.map (Station.touch r f) } } :=
    Keeps.ofDesk (DeskKeeps.ofMap fun _ => StationKeeps.touch r hf)
  refine hstations.trans (Keeps.ofDesk (s := { s with desk := { s.desk with stations := s.desk.stations.map _ } })
    (DeskKeeps.ofNarrowed rfl rfl (fun h => ?_) (fun t' ht' => ?_) fun p' hp' => ⟨p', hp', .refl p'⟩))
  · simpa [Desk.touch] using h
  · obtain ⟨t, ht, rfl⟩ := Option.map_eq_some_iff.1 ht'
    have hagain : ∀ o : Output, (∀ c, markedAgain r o = .suspending c → o = .suspending c) ∧
        ∀ l', markedAgain r o = .line l' → ∃ l, o = .line l ∧ l'.number = l.number := by
      intro o
      unfold markedAgain
      split
      · next l =>
        split
        · split
          · exact ⟨fun _ h => (nomatch h), fun l' h => ⟨l, rfl, by rw [← (Output.line.injEq _ _).mp h]⟩⟩
          · exact ⟨fun _ h => (nomatch h), fun l' h => ⟨l', h, rfl⟩⟩
        · exact ⟨fun _ h => (nomatch h), fun l' h => ⟨l', h, rfl⟩⟩
      · exact ⟨fun _ h => h, fun l' h => ⟨l', h, rfl⟩⟩
    exact ⟨t, ht, ⟨rfl, rfl, (hagain t.output).1, (hagain t.output).2, fun p hp => ⟨p, hp, le_rfl⟩⟩⟩

/-- An entry leaves a station's list, and the station's pages lose its line (R150). -/
theorem Keeps.dropWatch (n r : Nat) : Keeps s { s with desk := s.desk.dropWatch n r } :=
  (Keeps.modifyStation (n := n) fun _ _ => StationKeeps.dropEntry r).trans
    (Keeps.mapPages (s := s.modifyStation n (Station.dropEntry r)) _ (Page.withoutEntries_room _))

/-- A list replaced, and the station's pages without the lines of the entries that left (R151). -/
theorem Keeps.loadWatch (n : Nat) {entries : List WatchArgs} (hlen : entries.length ≤ 12)
    (hnodup : (entries.map WatchArgs.record).Nodup) (hr : ∀ w ∈ entries, (s.record? w.record).isSome = true) :
    Keeps s { s with desk := s.desk.loadWatch n entries } :=
  (Keeps.modifyStation (n := n) fun _ _ => StationKeeps.loadWatch hlen hnodup hr).trans
    (Keeps.mapPages (s := s.modifyStation n (Station.loadWatch entries)) _ (Page.withoutEntries_room _))

/-! ### The scan (R120 to R122) -/

/-- A station changed whose page is in no transaction and no slot. -/
theorem Keeps.modifyAside {n : Nat} {f : Station → Station} (ht : s.desk.lineLawful → ∀ t, s.desk.transaction = some t →
      t.station ≠ n) (hp : s.desk.lineLawful → ∀ p, s.desk.slot = some p → p.station ≠ n)
    (hframe : ∀ st, StationFrame s st (f st)) (hlaws : ∀ st, st.lawful → (f st).lawful ∧ (f st).runAgrees) :
    Keeps s (s.modifyStation n f) := by
  have attached {m : Nat} (hm : m ≠ n) (h : s.desk.isAttached m) : (s.desk.modifyStation n f).isAttached m := by
    obtain ⟨st, hst, hpresence⟩ := h
    exact ⟨st, by rw [Desk.modifyStation_get, if_neg hm, hst], hpresence⟩
  refine Keeps.ofDesk (DeskKeeps.ofPointwise (Desk.modifyStation_length _ _ _) (fun m st hst => ?_) (fun _ h => ⟨?_, ?_⟩)
    fun _ _ hpages => hpages)
  · have hmem := List.mem_of_getElem? hst
    rw [Desk.modifyStation_get, hst]
    split
    · exact ⟨_, rfl, hframe st, fun hs _ => hlaws st (hs.2 st hmem)⟩
    · exact ⟨st, rfl, StationFrame.refl s st, fun hs hl => ⟨hs.2 st hmem, hl.1 st hmem⟩⟩
  · cases htt : s.desk.transaction with
    | none => exact (Desk.transactionSound_none (d := s.desk.modifyStation n f) htt).2 ((Desk.transactionSound_none htt).1 h.2.1)
    | some t =>
      obtain ⟨hrest, hattached, hsuspending⟩ := (Desk.transactionSound_some htt).1 h.2.1
      exact (Desk.transactionSound_some (d := s.desk.modifyStation n f) htt).2
        ⟨hrest, attached (ht h t htt) hattached, hsuspending⟩
  · cases hpp : s.desk.slot with
    | none => exact Desk.slotSound_none hpp
    | some p =>
      obtain ⟨hattached, hother⟩ := (Desk.slotSound_some hpp).1 h.2.2
      exact (Desk.slotSound_some (d := s.desk.modifyStation n f) hpp).2 ⟨attached (hp h p hpp) hattached, hother⟩

/-- A station attached was DETACHED, so in no transaction and of no suspended page (R121). -/
theorem Keeps.attached {n : Nat} {st : Station} (hst : s.desk.stations[n]? = some st) (hd : st.presence = .detached)
    (now : Reading) : Keeps s (s.modifyStation n (Station.attached now)) := by
  have other {m : Nat} (h : s.desk.isAttached m) : m ≠ n := by
    rintro rfl
    obtain ⟨x, hx, hpresence⟩ := h
    obtain rfl : st = x := Option.some.inj (hst.symm.trans hx)
    simp [hd] at hpresence
  exact Keeps.modifyAside (fun h t ht => other ((Desk.transactionSound_some ht).1 h.2.1).2.1)
    (fun h p hp => other ((Desk.slotSound_some hp).1 h.2.2).1) (fun _ => StationFrame.attached now)
    fun _ hl => Station.attached_laws hl now

/-- A station detached: its transaction over, its suspended page discarded, its record set (R122). -/
theorem Keeps.detach (n : Nat) : Keeps s (s.detach n) := by
  have hslot : Keeps s { s with desk := { s.desk with slot := slotAfterDetach n s.desk.slot } } := by
    refine Keeps.ofDesk (DeskKeeps.ofNarrowed rfl rfl id (fun t ht => ⟨t, ht, ⟨rfl, rfl, fun _ h => h,
      fun l hl => ⟨l, hl, rfl⟩, fun p hp => ⟨p, hp, le_rfl⟩⟩⟩) fun p' hp' => ?_)
    cases hp : s.desk.slot with
    | none => simp [slotAfterDetach, hp] at hp'
    | some p =>
      refine ⟨p, rfl, ?_⟩
      simp only [hp, slotAfterDetach] at hp'
      split at hp'
      · cases hp'
      · split at hp' <;> cases hp' <;> exact ⟨rfl, rfl, rfl, le_rfl⟩
  have hother : ∀ p, slotAfterDetach n s.desk.slot = some p → p.station ≠ n := by
    intro p' hp'
    unfold slotAfterDetach at hp'
    split at hp'
    · cases hp'
    · split at hp'
      · cases hp'
      · split at hp' <;> cases hp' <;> assumption
  have aside {s2 : State} (ht : ∀ t, s2.desk.transaction = some t → t.station ≠ n)
      (hp : ∀ p, s2.desk.slot = some p → p.station ≠ n) : Keeps s2 (s2.modifyStation n Station.detached) :=
    Keeps.modifyAside (fun _ => ht) (fun _ => hp) (fun _ => StationFrame.detached) fun _ => Station.detached_laws
  unfold State.detach
  simp only
  split
  · next hnone => exact hslot.trans (aside (fun t ht => by simp [hnone] at ht) hother)
  · next t ht =>
    split
    · obtain ⟨-, -, hnone, -, -, hkept⟩ :=
        State.freeLine_frame { s with desk := { s.desk with slot := slotAfterDetach n s.desk.slot } }
      exact hslot.trans (Keeps.freeLine.trans
        (aside (fun t ht => absurd (hnone.symm.trans ht) (nomatch ·)) fun p hp => hother p (hkept.symm.trans hp)))
    · next hne => exact hslot.trans (aside (fun u hu => Option.some.inj (ht.symm.trans hu) ▸ hne) hother)

theorem Keeps.scanStation (reading : BitVec 16) (n : Nat) : Keeps s (State.scanStation reading s n) := by
  unfold State.scanStation
  split
  · exact Keeps.refl s
  · next st hst =>
    split
    · split
      · next h => exact Keeps.attached hst h.2 s.clock
      · split
        · exact Keeps.detach n
        · exact Keeps.refl s
    · exact Keeps.refl s

/-- A change made again and again keeps what each time keeps. -/
theorem Keeps.foldl {α : Type} {f : State → α → State} (h : ∀ s a, Keeps s (f s a)) (l : List α) (s : State) :
    Keeps s (l.foldl f s) := by
  induction l generalizing s with
  | nil => exact Keeps.refl s
  | cons a l ih => exact (h s a).trans (ih (f s a))

end

end Sys2Proof.Machine
end


section
/-! PROOF. The repeater: framing, lock and the bound of 320 characters stand through every character that comes and goes,
every message, and every reply placed (R162 to R170, R190). -/

namespace Sys2Proof.Machine

/-! ### The parts of the repeater's law -/

theorem Repeater.framed_congr {f g : Repeater} (h : g.arriving = f.arriving) (hf : f.framed) : g.framed := by
  simpa only [Repeater.framed, h] using hf

theorem Repeater.framed_nil {f : Repeater} (h : f.arriving = []) : f.framed := by
  simp only [Repeater.framed, h]

theorem Repeater.lockSound_congr {f g : Repeater} (hl : g.lock = f.lock) (hf : g.feed = f.feed) (hd : g.lossAt = f.lossAt)
    (hg : g.goodRun = f.goodRun) (hr : g.faultRun = f.faultRun) (h : f.lockSound) : g.lockSound := by
  simpa only [Repeater.lockSound, hl, hf, hd, hg, hr] using h

theorem Repeater.framed_short {f : Repeater} (h : f.framed) : f.arriving.length ≤ 255 := by
  have := Repeater.framed_arriving h
  omega

/-- What arrives and the held flag changed within the bound. -/
theorem Repeater.bounded_arriving {f : Repeater} (h : f.bounded) {arriving : List FeedChar} {held : Bool}
    (hc : (f.forward.map List.length).sum + arriving.length + (if held then 1 else 0) + f.ahead ≤ 320) :
    Repeater.bounded { f with arriving := arriving, heldFlag := held } :=
  ⟨hc, h.2⟩

/-- A held flag dropped and a message in progress removed leave the bound. -/
theorem Repeater.bounded_removed {f : Repeater} (h : f.bounded) {held : Bool} (hheld : held = true → f.heldFlag = true) :
    Repeater.bounded { f with arriving := [], heldFlag := held } := by
  refine Repeater.bounded_arriving h ?_
  have h1 := h.1
  simp only [Repeater.forwardCount] at h1
  cases held
  · simp only [List.length_nil, Bool.false_eq_true, if_false]
    omega
  · simp only [hheld rfl, if_true, List.length_nil] at h1 ⊢
    omega

/-! ### Characters that go out (R166) -/

theorem Repeater.whenFree_frame (f : Repeater) :
    f.whenFree = { f with forward := f.whenFree.forward, filled := f.whenFree.filled, out := f.whenFree.out } := by
  simp only [Repeater.whenFree, Repeater.startNext, Repeater.startMessage]
  repeat' split
  all_goals rfl

/-- No place is filled by what FEED OUT sends next: a reply that begins keeps the place it had (R169). -/
theorem Repeater.whenFree_filledPlaces (f : Repeater) : f.whenFree.filledPlaces ≤ f.filledPlaces := by
  by_cases hfree : f.unsent = []
  · by_cases hr : f.filled = [] ∨ 256 < f.leftCount
    · rw [Repeater.whenFree_message hfree hr]
      by_cases hs : f.afterSending = [] <;> simp [Repeater.filledPlaces, hs]
    · obtain ⟨hne, hl⟩ := not_or.1 hr
      obtain ⟨first, more, heq⟩ := List.exists_cons_of_ne_nil hne
      rw [Repeater.whenFree_reply hfree heq (by omega)]
      simp only [Repeater.filledPlaces, heq, List.length_cons]
      omega
  · rw [Repeater.whenFree_busy hfree]

theorem Repeater.sendCharacter_filledPlaces (f : Repeater) : f.sendCharacter.filledPlaces ≤ f.filledPlaces := by
  refine le_trans (Nat.le_of_eq ?_) (Repeater.whenFree_filledPlaces f)
  unfold Repeater.sendCharacter
  simp only [Repeater.filledPlaces]
  cases hout : f.whenFree.out with
  | idleFlag unsent => simp only
  | message => simp only
  | reply reply unsent place => cases place <;> rfl

theorem Repeater.sendCharacters_filledPlaces (f : Repeater) (count : Nat) :
    (f.sendCharacters count).filledPlaces ≤ f.filledPlaces := by
  induction count generalizing f with
  | zero => exact le_rfl
  | succ count ih => exact (ih f.sendCharacter).trans (Repeater.sendCharacter_filledPlaces f)

section
variable {s : State}

theorem Keeps.whenFree : Keeps s { s with feed := s.feed.whenFree } := by
  refine Keeps.ofFeed (fun ⟨hframed, hlock, hbounded⟩ => ⟨?_, ?_, ?_⟩) (by rw [Repeater.whenFree_frame])
    (Repeater.whenFree_filledPlaces _)
  · exact Repeater.framed_congr (by rw [Repeater.whenFree_frame]) hframed
  · rw [Repeater.whenFree_frame]
    exact hlock
  · exact (Repeater.whenFree_bounded (Repeater.framed_short hframed) hbounded).1

/-- A quiet millisecond: FEED OUT sends what the crystal times, and a flag held for 250 ms is dropped (R166, R190). -/
theorem Keeps.passMillisecond : Keeps s (passMillisecond s) := by
  have hquiet (h : s.feed.bounded) : (s.feed.quietThrough s.clock).bounded := by
    unfold Repeater.quietThrough
    split
    · exact h
    · exact ⟨h.1, h.2.1, h.2.2.1, h.2.2.2.1, h.2.2.2.2.1, (nomatch ·)⟩
  have hcrystal := Repeater.crystalMillisecond_frame (s.feed.quietThrough s.clock)
  have hthrough := Repeater.quietThrough_frame s.feed s.clock
  have hplaces : (s.feed.quietThrough s.clock).crystalMillisecond.filledPlaces ≤ s.feed.filledPlaces := by
    have hsame : (s.feed.quietThrough s.clock).filledPlaces = s.feed.filledPlaces := by rw [hthrough]; rfl
    unfold Repeater.crystalMillisecond
    split
    · exact hsame ▸ Repeater.sendCharacters_filledPlaces _ _
    · exact hsame.le
  have hfeed : Keeps s { s with feed := (s.feed.quietThrough s.clock).crystalMillisecond.flagDropped (s.clock + 1#32) } := by
    refine Keeps.ofFeed (fun ⟨hframed, hlock, hbounded⟩ => ⟨?_, ?_, ?_⟩) ?_ hplaces
    · refine Repeater.framed_congr ?_ hframed
      rw [Repeater.flagDropped_frame, hcrystal, hthrough]
    · rw [Repeater.flagDropped_frame, hcrystal, hthrough]
      exact hlock
    · have hshort : (s.feed.quietThrough s.clock).arriving.length ≤ 255 := by
        rw [hthrough]
        exact Repeater.framed_short hframed
      have hkept := Repeater.crystalMillisecond_bounded hshort (hquiet hbounded)
      generalize (s.feed.quietThrough s.clock).crystalMillisecond = g at hkept
      refine Repeater.bounded_arriving (arriving := g.arriving) hkept ?_
      have h1 := hkept.1
      simp only [Repeater.forwardCount] at h1
      refine le_trans (Nat.add_le_add_right (Nat.add_le_add_left ?_ _) _) h1
      cases g.heldFlag
      · simp
      · split <;> simp
    · rw [Repeater.flagDropped_frame, hcrystal, hthrough]
  exact hfeed.trans (Keeps.ofManager _ (s.clock + 1#32) s.manager s.pending)

/-! ### Characters that come (R162 to R165, R190) -/

/-- An arrival noted keeps framing and lock, and leaves room for the character that came. -/
theorem Repeater.arrivalNoted_spec {f : Repeater} (now : Reading) (h : f.lawful) :
    (f.arrivalNoted now).framed ∧ (f.arrivalNoted now).lockSound ∧ (f.arrivalNoted now).bounded ∧
      (f.arrivalNoted now).arriving = f.arriving ∧ (f.arrivalNoted now).heldFlag = f.heldFlag ∧
      ((f.arrivalNoted now).forward.map List.length).sum + f.arriving.length + (if f.heldFlag then 1 else 0) +
        (f.arrivalNoted now).ahead ≤ 319 := by
  obtain ⟨hframed, hlock, hbounded⟩ := h
  obtain ⟨hkept, hroom⟩ := Repeater.arrivalNoted_bounded now (Repeater.framed_short hframed) hbounded
  have harriving : (f.arrivalNoted now).arriving = f.arriving := by simp [Repeater.arrivalNoted]
  refine ⟨Repeater.framed_congr harriving hframed, ?_, hkept, harriving, by simp [Repeater.arrivalNoted], ?_⟩
  · exact Repeater.lockSound_congr (by simp [Repeater.arrivalNoted]) (by simp [Repeater.arrivalNoted])
      (by simp [Repeater.arrivalNoted]) (by simp [Repeater.arrivalNoted]) (by simp [Repeater.arrivalNoted]) hlock
  · simp only [Repeater.forwardCount, harriving] at hroom
    omega

theorem Repeater.arrivalNoted_places (f : Repeater) (now : Reading) :
    (f.arrivalNoted now).reserved = f.reserved ∧ (f.arrivalNoted now).filledPlaces ≤ f.filledPlaces :=
  ⟨by simp [Repeater.arrivalNoted], Repeater.sendCharacter_filledPlaces f⟩

theorem dataOf_append (front : List FeedChar) (value : Byte) : dataOf (front ++ [.data value]) = dataOf front ++ [value] := by
  induction front with
  | nil => rfl
  | cons c rest ih => cases c <;> simp [dataOf, ih]

/-- A data character that joins leaves the message in progress framed (R162, R190). -/
theorem Repeater.framed_joined {f g : Repeater} {held : Bool} {value : Byte} (h : f.framed)
    (hjoins : classOfData held f.arriving value = .joins) {first : FeedChar} {rest : List FeedChar}
    (ha : f.arriving = first :: rest) (hg : g.arriving = f.arriving ++ [.data value]) : g.framed := by
  simp only [Repeater.framed, ha] at h
  obtain ⟨rfl, hne, hflag, hlength⟩ := h
  have hgoal : FeedChar.flag = .flag ∧ rest ++ [.data value] ≠ [] ∧ (∀ c ∈ rest ++ [.data value], c ≠ .flag) ∧
      ∀ kind length more, dataOf (rest ++ [.data value]) = kind :: length :: more →
        4 ≤ length.toNat ∧ length.toNat ≤ 64 ∧ more.length + 2 < length.toNat := by
    refine ⟨rfl, by simp, fun c hc => ?_, fun kind length more hdata => ?_⟩
    · rcases List.mem_append.1 hc with hc | hc
      · exact hflag c hc
      · rw [List.mem_singleton.1 hc]
        exact (nomatch ·)
    · rw [dataOf_append] at hdata
      cases hr : dataOf rest with
      | nil => simp [hr] at hdata
      | cons k front =>
        cases front with
        | nil =>
          simp only [hr, List.cons_append, List.nil_append, List.cons.injEq] at hdata
          obtain ⟨rfl, rfl, rfl⟩ := hdata
          simp only [classOfData, ha, dataOf, hr] at hjoins
          split at hjoins
          · cases hjoins
          · simp only [List.length_nil]
            omega
        | cons l more0 =>
          have hold := hlength k l more0 hr
          simp only [hr, List.cons_append, List.cons.injEq] at hdata
          obtain ⟨rfl, rfl, rfl⟩ := hdata
          simp only [classOfData, ha, dataOf, hr] at hjoins
          split at hjoins
          · cases hjoins
          · simp only [List.length_append, List.length_singleton]
            omega
  simpa only [Repeater.framed, hg, ha, List.cons_append] using hgoal

/-- A character that is held, begins a message or joins the one in progress (R165, R190). -/
theorem Keeps.joined {arrival : Arrival} (h : s.classOf arrival = .joins) :
    Keeps s { s.noteArrival with feed := s.noteArrival.feed.join arrival } := by
  obtain ⟨hreserved, hfilled⟩ := Repeater.arrivalNoted_places s.feed s.clock
  have hframe : ((s.feed.arrivalNoted s.clock).join arrival).reserved = s.feed.reserved ∧
      ((s.feed.arrivalNoted s.clock).join arrival).filledPlaces ≤ s.feed.filledPlaces := by
    unfold Repeater.join
    split
    · exact ⟨hreserved, hfilled⟩
    · split <;> exact ⟨hreserved, hfilled⟩
    · exact ⟨hreserved, hfilled⟩
  refine Keeps.ofFeed (f := (s.feed.arrivalNoted s.clock).join arrival) (fun hl => ?_) hframe.1 hframe.2
  obtain ⟨hframed, hlock, hbounded, harriving, hheld, hroom⟩ := Repeater.arrivalNoted_spec s.clock hl
  generalize s.feed.arrivalNoted s.clock = g at hframed hlock hbounded harriving hheld hroom ⊢
  cases arrival with
  | unreadable => cases h
  | flag =>
    refine ⟨Repeater.framed_congr rfl hframed, hlock, Repeater.bounded_arriving (arriving := g.arriving) hbounded ?_⟩
    rw [harriving]
    simp only [if_true]
    omega
  | data value =>
    have hclass : classOfData s.flagHeld s.feed.arriving value = .joins := h
    cases ha : s.feed.arriving with
    | nil =>
      have hflag : s.feed.heldFlag = true := by
        rw [ha] at hclass
        simp only [classOfData] at hclass
        split at hclass
        · next hf =>
          simp only [State.flagHeld, Bool.and_eq_true] at hf
          exact hf.1
        · cases hclass
      rw [ha] at harriving hroom
      have hjoin : g.join (.data value) = { g with heldFlag := false, arriving := [.flag, .data value] } := by
        simp only [Repeater.join, harriving]
      rw [hjoin]
      refine ⟨⟨rfl, by simp, by simp, fun kind length more hh => by simp [dataOf] at hh⟩, hlock,
        Repeater.bounded_arriving hbounded ?_⟩
      simp only [hflag, if_true, List.length_nil, List.length_cons, Bool.false_eq_true, if_false] at hroom ⊢
      omega
    | cons first rest =>
      have hjoin : g.join (.data value) = { g with arriving := g.arriving ++ [.data value] } := by
        rw [ha] at harriving
        simp only [Repeater.join, harriving]
      rw [hjoin]
      refine ⟨Repeater.framed_joined hl.1 hclass ha (by rw [harriving]), hlock,
        Repeater.bounded_arriving (held := g.heldFlag) hbounded ?_⟩
      rw [hheld, harriving, List.length_append, List.length_singleton]
      omega

/-- The message in progress removed with the arrival that ends it. -/
theorem Keeps.arrived : Keeps s s.arrived := by
  obtain ⟨hreserved, hfilled⟩ := Repeater.arrivalNoted_places s.feed s.clock
  refine Keeps.ofFeed (f := { s.feed.arrivalNoted s.clock with arriving := [] }) (fun hl => ?_) hreserved hfilled
  obtain ⟨-, hlock, hbounded, -⟩ := Repeater.arrivalNoted_spec s.clock hl
  exact ⟨Repeater.framed_nil rfl, hlock,
    Repeater.bounded_removed (f := s.feed.arrivalNoted s.clock) (held := (s.feed.arrivalNoted s.clock).heldFlag) hbounded id⟩

/-- The characters of a framed message in progress are its flag and its data. -/
theorem Repeater.framed_length {f : Repeater} (h : f.framed) (hne : f.arriving ≠ []) :
    f.arriving.length = (dataOf f.arriving).length + 1 := by
  have data : ∀ l : List FeedChar, (∀ c ∈ l, c ≠ .flag) → (dataOf l).length = l.length := by
    intro l
    induction l with
    | nil => intro _; rfl
    | cons c l ih => intro hl; cases c <;> simp_all [dataOf]
  obtain ⟨first, rest, ha⟩ := List.exists_cons_of_ne_nil hne
  simp only [Repeater.framed, ha] at h
  obtain ⟨rfl, -, hflag, -⟩ := h
  rw [ha]
  simp [dataOf, data rest hflag]

/-- A whole message joins the tail of the forward queue within the bound (R165). -/
theorem Repeater.bounded_forward {f : Repeater} (h : f.bounded) {message : List FeedChar} (hm : message ≠ [])
    {arriving : List FeedChar} (hc : (f.forward.map List.length).sum + message.length + arriving.length +
      (if f.heldFlag then 1 else 0) + f.ahead ≤ 320) :
    Repeater.bounded { f with forward := f.forward ++ [message], arriving := arriving } := by
  obtain ⟨-, hmessage, hafter, hfilled, hshare, htiming⟩ := h
  have hahead : Repeater.ahead { f with forward := f.forward ++ [message], arriving := arriving } = f.ahead := by
    cases hout : f.out <;> simp only [Repeater.ahead, Repeater.unsent, hout]
  refine ⟨?_, fun _ => by simp, fun m hmem => ?_, hfilled, hshare, htiming⟩
  · rw [hahead]
    simp only [Repeater.forwardCount, List.map_append, List.sum_append, List.map_cons, List.map_nil, List.sum_cons,
      List.sum_nil]
    omega
  · have hin : m ∈ f.afterSending ∨ m = message := by
      cases hout : f.out with
      | message =>
        simp only [Repeater.afterSending, hout] at hmem ⊢
        rw [List.drop_append_of_le_length (List.length_pos_iff.2 (hmessage hout))] at hmem
        exact (List.mem_append.1 hmem).imp_right List.mem_singleton.1
      | idleFlag unsent =>
        simp only [Repeater.afterSending, hout] at hmem ⊢
        exact (List.mem_append.1 hmem).imp_right List.mem_singleton.1
      | reply reply unsent place =>
        simp only [Repeater.afterSending, hout] at hmem ⊢
        exact (List.mem_append.1 hmem).imp_right List.mem_singleton.1
    rcases hin with hin | rfl
    · exact hafter m hin
    · exact hm

/-- A message received whole joins the forward queue in place of its characters as they came (R165). -/
theorem Keeps.forwarded {last : Byte} (h : s.classOf (.data last) = .completes) :
    Keeps s (s.forwarded (dataOf s.feed.arriving ++ [last])) := by
  have hne : s.feed.arriving ≠ [] := by
    intro hnil
    simp only [State.classOf, classOfData, hnil] at h
    split at h <;> cases h
  obtain ⟨hreserved, hfilled⟩ := Repeater.arrivalNoted_places s.feed s.clock
  refine Keeps.ofFeed (f := { s.feed.arrivalNoted s.clock with
    forward := (s.feed.arrivalNoted s.clock).forward ++ [queued (dataOf s.feed.arriving ++ [last])], arriving := [] })
    (fun hl => ?_) hreserved hfilled
  obtain ⟨-, hlock, hbounded, -, hheld, hroom⟩ := Repeater.arrivalNoted_spec s.clock hl
  have hlength := Repeater.framed_length hl.1 hne
  refine ⟨Repeater.framed_nil rfl, hlock, Repeater.bounded_forward hbounded (by simp [queued]) ?_⟩
  rw [hheld, length_queued, List.length_append, List.length_singleton, List.length_nil]
  omega

/-! ### Lock and the feed (R163, R164) -/

theorem Keeps.ofLock {f : Repeater} (hl : s.feed.lawful → f.lockSound)
    (hframe : f = { s.feed with lock := f.lock, goodRun := f.goodRun, faultRun := f.faultRun, feed := f.feed,
                                lossAt := f.lossAt, errorLimit := f.errorLimit }) : Keeps s { s with feed := f } := by
  refine Keeps.ofFeed (fun h => ⟨?_, hl h, ?_⟩) (by rw [hframe]) (by rw [hframe]; exact le_rfl)
  · exact Repeater.framed_congr (by rw [hframe]) h.1
  · rw [hframe]
    exact h.2.2

theorem Keeps.errorLimit (flag : Bool) : Keeps s { s with feed := { s.feed with errorLimit := flag } } :=
  Keeps.ofLock (fun h => h.2.1) rfl

/-- The fault run 0, or the good run counted, keeps the lock's law. -/
theorem Keeps.faultRun_zero : Keeps s { s with feed := { s.feed with faultRun := 0 } } :=
  Keeps.ofLock (fun ⟨_, ⟨h1, h2, h3, _, h5, _⟩, _⟩ => ⟨h1, h2, h3, Nat.zero_le _, h5, fun _ => Nat.zero_le _⟩) rfl

theorem Keeps.goodRun {run : Nat} (h : run ≤ 1) : Keeps s { s with feed := { s.feed with goodRun := run } } :=
  Keeps.ofLock (fun ⟨_, ⟨h1, h2, _, h4, _, h6⟩, _⟩ => ⟨h1, h2, Nat.le_succ_of_le h, h4, fun _ => h, h6⟩) rfl

theorem Keeps.lockLossCounted : Keeps s { s with counters := { s.counters with lockLosses := bump s.counters.lockLosses 1 } } :=
  Keeps.ofCounters fun ⟨h1, _, h3⟩ => ⟨h1, bump_le _ _, h3⟩

/-- Lock lost: SEARCHING, the message in progress removed, and the loss deadline set or kept, with a fault run of at most 3 (R163). -/
theorem Repeater.lockLost_lawful {f : Repeater} (h : f.lawful) {run : Nat} (hrun : run ≤ 3) {at_ : Option Reading}
    (hat : at_.isSome = true → f.feed = .normal ∨ f.lossAt.isSome = true) :
    Repeater.lawful
      { f with lock := .searching, goodRun := 0, faultRun := run, arriving := [], lossAt := at_ } := by
  obtain ⟨-, ⟨-, h2, -⟩, hbounded⟩ := h
  refine ⟨Repeater.framed_nil rfl, ?_, Repeater.bounded_removed hbounded (held := f.heldFlag) id⟩
  refine ⟨(nomatch ·), fun hloss => ⟨rfl, ?_⟩, Nat.zero_le _, hrun, fun _ => Nat.zero_le _, (nomatch ·)⟩
  rcases hat hloss with hnormal | hset
  · exact hnormal
  · exact (h2 hset).2

/-- The loss deadline that stands, or the one set while the feed is NORMAL (R163). -/
theorem State.loseLock_lossAt {s : State} (h : s.loseLock.feed.lossAt.isSome = true) :
    s.feed.feed = .normal ∨ s.feed.lossAt.isSome = true := by
  simp only [State.loseLock] at h
  cases hat : s.feed.lossAt with
  | some at_ => exact Or.inr rfl
  | none =>
    simp only [hat] at h
    split at h
    · exact Or.inl ‹_›
    · cases h

theorem Keeps.loseLock : Keeps s s.loseLock := by
  have hfeed : Keeps s { s with feed := s.loseLock.feed } :=
    Keeps.ofFeed (fun h => Repeater.lockLost_lawful h h.2.1.2.2.2.1 State.loseLock_lossAt) rfl le_rfl
  exact hfeed.trans (Keeps.lockLossCounted (s := { s with feed := s.loseLock.feed }))

/-- A framing fault counted, its run with it, and lock lost at the third (R162, R163). -/
theorem Keeps.countFramingFault : Keeps s s.countFramingFault := by
  have counted (f : Repeater) (hk : Keeps s { s with feed := f }) : Keeps s { s with
      feed := f
      counters := { s.counters with framingFaults := bump s.counters.framingFaults 1 } } :=
    hk.trans (Keeps.ofCounters (s := { s with feed := f }) fun ⟨_, h2⟩ => ⟨bump_le _ _, h2⟩)
  have removed {f : Repeater} (h : f.bounded) : Repeater.bounded { f with arriving := [] } :=
    Repeater.bounded_removed h (held := f.heldFlag) id
  unfold State.countFramingFault
  split
  · refine counted { s.feed with arriving := [], goodRun := 0 } (Keeps.ofFeed ?_ rfl le_rfl)
    exact fun ⟨_, ⟨h1, h2, _, h4, _, h6⟩, hb⟩ =>
      ⟨Repeater.framed_nil rfl, ⟨h1, h2, Nat.zero_le _, h4, fun _ => Nat.zero_le _, h6⟩, removed hb⟩
  · next hlocked =>
    simp only
    split
    · have hat := State.loseLock_lossAt (s := s)
      have hlost := counted { s.feed with
          lock := .searching, goodRun := 0, faultRun := s.feed.faultRun + 1, arriving := [],
          lossAt := s.loseLock.feed.lossAt }
        (Keeps.ofFeed (fun h => Repeater.lockLost_lawful h (Nat.succ_le_succ (h.2.1.2.2.2.2.2 hlocked)) hat) rfl le_rfl)
      exact hlost.trans Keeps.lockLossCounted
    · next hfew =>
      refine counted { s.feed with arriving := [], faultRun := s.feed.faultRun + 1 } (Keeps.ofFeed ?_ rfl le_rfl)
      exact fun ⟨_, ⟨h1, h2, h3, _, h5, _⟩, hb⟩ =>
        ⟨Repeater.framed_nil rfl, ⟨h1, h2, h3, by simp only; omega, h5, fun _ => by simp only; omega⟩, removed hb⟩

end

end Sys2Proof.Machine
end


section
/-! PROOF. The repeater and intake: faults, lock and the feed declared LOST or NORMAL, replies placed and expired, and what a
whole message does to intake keep the laws (R162 to R172). -/

namespace Sys2Proof.Machine

section
variable {s : State}

/-! ### Faults, lock, and the feed declared LOST or NORMAL (R162 to R164) -/

/-- A framing fault takes the message in progress away, and what is then held goes with the character that came (R162, R190). -/
theorem State.countFramingFault_held (held : Bool) :
    { s.countFramingFault with feed := { s.countFramingFault.feed with heldFlag := held } } =
      State.countFramingFault { s with feed := { s.feed with arriving := [], heldFlag := held } } := by
  unfold State.countFramingFault State.loseLock
  cases s.feed.lock with
  | searching => rfl
  | locked =>
    simp only
    split
    · rfl
    · rfl

theorem Keeps.framingFault (held : Bool) :
    Keeps s { s.noteArrival.countFramingFault with feed := { s.noteArrival.countFramingFault.feed with heldFlag := held } } := by
  obtain ⟨hreserved, hfilled⟩ := Repeater.arrivalNoted_places s.feed s.clock
  rw [State.countFramingFault_held]
  refine Keeps.trans (t := { s.noteArrival with feed := { s.noteArrival.feed with arriving := [], heldFlag := held } })
    (Keeps.ofFeed (f := { s.feed.arrivalNoted s.clock with arriving := [], heldFlag := held }) (fun hl => ?_) hreserved hfilled)
    Keeps.countFramingFault
  obtain ⟨-, hlock, hbounded, -, -, hroom⟩ := Repeater.arrivalNoted_spec s.clock hl
  refine ⟨Repeater.framed_nil rfl, hlock, Repeater.bounded_arriving hbounded ?_⟩
  have hone : (if held then 1 else 0) ≤ 1 := by split <;> omega
  simp only [List.length_nil]
  omega

theorem Keeps.lossOnSilence : Keeps s (State.loseLock { s with feed := { s.feed with heldFlag := false } }) := by
  refine Keeps.trans (t := { s with feed := { s.feed with heldFlag := false } }) (Keeps.ofFeed (fun hl => ?_) rfl le_rfl)
    Keeps.loseLock
  obtain ⟨hframed, hlock, hbounded⟩ := hl
  refine ⟨hframed, hlock, Repeater.bounded_arriving (arriving := s.feed.arriving) hbounded ?_⟩
  have h1 := hbounded.1
  simp only [Repeater.forwardCount] at h1
  simp only [Bool.false_eq_true, if_false]
  omega

theorem Keeps.declareLost (h : s.feed.lock = .searching) : Keeps s s.declareLost := by
  have hfeed : Keeps s { s with
      feed := { s.feed with lossAt := none, feed := .lost }
      counters := { s.counters with feedLosses := bump s.counters.feedLosses 1 } } :=
    (Keeps.ofLock (f := { s.feed with lossAt := none, feed := .lost }) (fun ⟨_, ⟨_, _, h3, h4, h5, h6⟩, _⟩ =>
      ⟨fun hl => (nomatch h.symm.trans hl), (nomatch ·), h3, h4, h5, h6⟩) rfl).trans
      (Keeps.ofCounters fun ⟨h1, h2, _, h4⟩ => ⟨h1, h2, bump_le _ _, h4⟩)
  exact hfeed.trans (Keeps.markAssigned.trans (Keeps.offer true true fun _ => rfl))

/-- An expectation removed, as a restored feed leaves it (R164). -/
theorem Keeps.unsynchronised : Keeps s { s with intake := { s.intake with expectation := none } } :=
  Keeps.ofIntake (fun h => h.1) (fun _ _ hh => nomatch hh) (fun h => h.2.2.1) id

/-- The feed is NORMAL or LOST (R163). -/
theorem FeedState.normal_of_not_lost {f : FeedState} (h : f ≠ .lost) : f = .normal := by
  cases f with
  | normal => rfl
  | lost => exact absurd rfl h

theorem Keeps.gainLock : Keeps s s.gainLock := by
  have locked : Keeps s { s with feed :=
      { s.feed with lock := .locked, goodRun := 2, faultRun := 0, lossAt := none, feed := .normal } } :=
    Keeps.ofLock (fun _ => ⟨fun _ => rfl, (nomatch ·), le_rfl, Nat.zero_le _, (nomatch ·), fun _ => Nat.zero_le _⟩) rfl
  unfold State.gainLock
  split
  · exact locked.trans (Keeps.unsynchronised.trans (Keeps.markAssigned.trans (Keeps.offer true true fun _ => rfl)))
  · next hnormal =>
    rw [← FeedState.normal_of_not_lost hnormal] at locked
    exact locked

/-- Lock is gained without looking at the forward queue (R163, R165). -/
theorem State.gainLock_forwardMessage (s : State) (bytes : List Byte) :
    s.gainLock.forwardMessage bytes = (s.forwardMessage bytes).gainLock := by
  by_cases hl : s.feed.feed = .lost
  · have hforwarded : (s.forwardMessage bytes).feed.feed = .lost := hl
    rw [State.gainLock, State.gainLock, if_pos hl, if_pos hforwarded]
    simp only [State.declareRestored]
    have hfeed (u : State) : (u.offer true true .feedRestored).feed = u.feed := by rw [State.offer_frame]
    simp only [State.forwardMessage, hfeed]
    exact (State.offer_feed _ true true .feedRestored _).symm
  · have hforwarded : ¬ (s.forwardMessage bytes).feed.feed = .lost := hl
    rw [State.gainLock, State.gainLock, if_neg hl, if_neg hforwarded]
    rfl

/-! ### Replies placed and expired (R169, R170) -/

theorem Keeps.replyExpired (position : Nat) :
    Keeps s { s with
      feed := { s.feed with filled := s.feed.filled.eraseIdx position }
      counters := { s.counters with expiredReplies := bump s.counters.expiredReplies 1 } } := by
  refine (Keeps.ofFeed (f := { s.feed with filled := s.feed.filled.eraseIdx position }) (fun hl => ?_) rfl ?_).trans
    (Keeps.ofCounters fun ⟨h1, h2, h3, h4, h5, _, h7⟩ => ⟨h1, h2, h3, h4, h5, bump_le _ _, h7⟩)
  · obtain ⟨hframed, hlock, h1, h2, h3, h4, h5⟩ := hl
    exact ⟨hframed, hlock, h1, h2, h3, fun held hmem => h4 held (List.mem_of_mem_eraseIdx hmem), h5⟩
  · exact Nat.add_le_add_right (List.length_eraseIdx_le _ _) _

/-- A reply of a body of at most 56 characters is 63 at most, its flag among them (R190, Table 10-4). -/
theorem Reply.characters_length (r : Reply) : r.characters.length = r.body.characters.length + 7 := by
  simp [Reply.characters, Reply.message, wholeMessage, one]
  omega

/-- A reply placed in a free place (R169, R180). -/
theorem Keeps.replied {echo : Nat} {status : Status} {body : ReplyBody} (hfree : s.feed.occupied < 4)
    (hbody : s.recordsLawful → s.board.lawful → body.characters.length ≤ 56) : Keeps s (s.replied echo status body) :=
  { Keeps.refl s with
    references := id
    feed := fun hr hb ⟨hframed, hlock, h1, h2, h3, h4, h5⟩ => by
      refine ⟨hframed, hlock, h1, h2, h3, fun held hmem => ?_, h5⟩
      rcases List.mem_append.1 hmem with hmem | hmem
      · exact h4 held hmem
      · rw [List.mem_singleton.1 hmem, Reply.characters_length]
        have := hbody hr hb
        exact Nat.add_le_add_right this 7
    places := fun ⟨hreserved, _⟩ => by
      refine ⟨hreserved, ?_⟩
      simp only [Repeater.occupied, Repeater.filledPlaces] at hfree
      simp only [Repeater.occupied, Repeater.filledPlaces, State.replied, List.length_append, List.length_singleton]
      omega }

/-! ### Intake and the counts of a whole message (R165, R167, R171, R172) -/

theorem Keeps.countMalformed : Keeps s s.countMalformed :=
  Keeps.ofCounters fun ⟨h1, h2, h3, h4, h5, h6, _, h8⟩ => ⟨h1, h2, h3, h4, h5, h6, bump_le _ _, h8⟩

theorem Keeps.countUntaken : Keeps s s.countUntaken :=
  Keeps.ofCounters fun ⟨h1, h2, h3, h4, _, h6⟩ => ⟨h1, h2, h3, h4, bump_le _ _, h6⟩

theorem Keeps.countDuplicate : Keeps s s.countDuplicate :=
  Keeps.ofCounters fun ⟨h1, h2, h3, h4, h5, h6, h7, _, h9⟩ => ⟨h1, h2, h3, h4, h5, h6, h7, bump_le _ _, h9⟩

theorem Keeps.countGap (missed : Nat) : Keeps s (s.countGap missed) :=
  Keeps.ofCounters fun ⟨h1, h2, h3, h4, h5, h6, h7, h8, _, _, h11⟩ =>
    ⟨h1, h2, h3, h4, h5, h6, h7, h8, bump_le _ _, bump_le _ _, h11⟩

theorem Keeps.countCheckFailure : Keeps s s.countCheckFailure :=
  Keeps.trans (t := { s with counters := s.countCheckFailure.counters })
    (Keeps.ofCounters fun ⟨h1, h2, h3, _, h5⟩ => ⟨h1, h2, h3, bump_le _ _, h5⟩)
    (Keeps.errorLimit (s := { s with counters := s.countCheckFailure.counters }) _)

theorem Keeps.acceptMessage {sequence : Nat} (h : sequence ≤ 4095) (msg : MarketMsg) :
    Keeps s (s.acceptMessage sequence msg) := by
  have expected (e : Nat) (he : some sequence = some e) : e ≤ 4095 := Option.some.inj he ▸ h
  unfold State.acceptMessage
  simp only
  split
  · next hroom =>
    refine Keeps.ofIntake (fun _ => ?_) (fun _ => expected) (fun hs m hm => ?_) (fun hm => ?_)
    · simp only [List.length_append, List.length_singleton]
      omega
    · rcases List.mem_append.1 hm with hm | hm
      · exact hs.2.2.1 m hm
      · rw [List.mem_singleton.1 hm]
        exact h
    · simpa [Intake.holdsMarked] using hm
  · exact (Keeps.ofIntake (i := { s.intake with expectation := some sequence }) (fun hs => hs.1) (fun _ => expected)
      (fun hs => hs.2.2.1) id).trans (Keeps.ofCounters fun ⟨h1, h2, h3, h4, h5, h6, h7, h8, h9, h10, _, h12⟩ =>
        ⟨h1, h2, h3, h4, h5, h6, h7, h8, h9, h10, bump_le _ _, h12⟩)

theorem Keeps.checkSequence {sequence : Nat} (h : sequence ≤ 4095) (msg : MarketMsg) :
    Keeps s (s.checkSequence sequence msg) := by
  unfold State.checkSequence
  split
  · exact Keeps.acceptMessage h msg
  · simp only
    split
    · exact Keeps.countDuplicate
    · split
      · exact Keeps.acceptMessage h msg
      · exact (Keeps.countGap _).trans (Keeps.acceptMessage h msg)

theorem Keeps.handToIntake (bytes : List Byte) : Keeps s (s.handToIntake bytes) := by
  unfold State.handToIntake
  split
  · exact Keeps.countMalformed
  · split
    · exact Keeps.checkSequence ‹_› _
    · exact Keeps.countMalformed

/-! ### ASSIGN (R179) -/

theorem length_assignMessage (candidate : Nat) : (assignMessage candidate).length = 7 := by
  simp [assignMessage, commandMessage, wholeMessage, commandBody]

/-- Characters that join change what FEED OUT sends and what is arriving alone, and fill no place (R165, R166). -/
theorem Repeater.takeCharacters_frame (f : Repeater) (message : List FeedChar) :
    f.takeCharacters message = { f with
      forward := (f.takeCharacters message).forward
      filled := (f.takeCharacters message).filled
      out := (f.takeCharacters message).out
      arriving := f.arriving ++ message } ∧ (f.takeCharacters message).filledPlaces ≤ f.filledPlaces := by
  induction message generalizing f with
  | nil =>
    simp only [List.append_nil]
    exact ⟨rfl, le_rfl⟩
  | cons c rest ih =>
    obtain ⟨hframe, hplaces⟩ := ih { f.sendCharacter with arriving := f.arriving ++ [c] }
    refine ⟨?_, hplaces.trans (Repeater.sendCharacter_filledPlaces f)⟩
    refine Eq.trans hframe ?_
    simp [Repeater.takeCharacters]

/-- Characters that join after those already arriving keep the bound, FEED OUT sending one as each comes (R165, R166). -/
theorem Repeater.takeCharacters_bounded {f : Repeater} {message : List FeedChar}
    (hlen : f.arriving.length + message.length ≤ 255) (h : f.bounded) : (f.takeCharacters message).bounded := by
  induction message generalizing f with
  | nil => exact h
  | cons c rest ih =>
    simp only [List.length_cons] at hlen
    obtain ⟨hsent, hroom⟩ := Repeater.sendCharacter_bounded (by omega) h
    refine ih (by simp only [List.length_append, List.length_singleton]; omega) ?_
    refine Repeater.bounded_arriving (held := f.sendCharacter.heldFlag) hsent ?_
    simp only [Repeater.forwardCount, Repeater.sendCharacter_arriving] at hroom
    simp only [Repeater.sendCharacter_heldFlag, List.length_append, List.length_singleton]
    omega

/-- The newest message replaced by one as long (R165). -/
theorem Repeater.bounded_replaced {f : Repeater} (h : f.bounded) {newest message : List FeedChar}
    (hnewest : f.forward.getLast? = some newest) (hlen : message.length = newest.length) (hm : message ≠ []) :
    Repeater.bounded { f with forward := f.forward.dropLast ++ [message] } := by
  obtain ⟨hcount, -, hafter, hfilled, hshare, htiming⟩ := h
  have hforward : f.forward = f.forward.dropLast ++ [newest] := by
    obtain ⟨front, hfront⟩ := List.getLast?_eq_some_iff.1 hnewest
    rw [hfront, List.dropLast_concat]
  have hsum : ((f.forward.dropLast ++ [message]).map List.length).sum = (f.forward.map List.length).sum := by
    conv_rhs => rw [hforward]
    simp [hlen]
  refine ⟨?_, fun _ => by simp, fun m hmem => ?_, hfilled, hshare, htiming⟩
  · have hahead : Repeater.ahead { f with forward := f.forward.dropLast ++ [message] } = f.ahead := by
      cases hout : f.out <;> simp only [Repeater.ahead, Repeater.unsent, hout]
    rw [hahead]
    simpa only [Repeater.forwardCount, hsum] using hcount
  · have hin : m = message ∨ m ∈ f.afterSending := by
      cases hfront : f.forward.dropLast with
      | nil =>
        cases hout : f.out <;> simp only [Repeater.afterSending, hfront, hout, List.nil_append, List.drop_one,
          List.tail_cons, List.mem_singleton, List.not_mem_nil] at hmem
        · exact Or.inl hmem
        · exact Or.inl hmem
      | cons head rest =>
        rw [hfront] at hforward
        cases hout : f.out <;> simp only [Repeater.afterSending, hfront, hout, List.cons_append, List.drop_one,
          List.tail_cons, List.mem_cons, List.mem_append, List.not_mem_nil, or_false] at hmem ⊢ <;>
          rw [hforward] <;>
          simp only [List.cons_append, List.tail_cons, List.mem_cons, List.mem_append] <;>
          tauto
    rcases hin with rfl | hin
    · exact hm
    · exact hafter m hin

theorem Keeps.replaceAssign (candidate : Nat) : Keeps s { s with feed := s.feed.replaceAssign candidate } := by
  have hne : assignMessage (candidate + 1) ≠ [] := List.cons_ne_nil _ _
  unfold Repeater.replaceAssign
  split
  · next hnewest =>
    refine Keeps.ofFeed (fun ⟨hframed, hlock, hbounded⟩ => ⟨hframed, hlock, ?_⟩) rfl le_rfl
    exact Repeater.bounded_replaced hbounded hnewest (by simp only [length_assignMessage]) hne
  · obtain ⟨hframe, hplaces⟩ := Repeater.takeCharacters_frame s.feed (assignMessage (candidate + 1))
    refine Keeps.ofFeed (fun ⟨hframed, hlock, hbounded⟩ => ?_) (by unfold Repeater.takeMessage; rw [hframe]) hplaces
    have hroom := Repeater.framed_arriving hframed
    have htaken := Repeater.takeCharacters_bounded (message := assignMessage (candidate + 1))
      (by rw [length_assignMessage]; omega) hbounded
    have harriving : (s.feed.takeCharacters (assignMessage (candidate + 1))).arriving =
        s.feed.arriving ++ assignMessage (candidate + 1) := by rw [hframe]
    refine ⟨Repeater.framed_congr rfl hframed, ?_, Repeater.bounded_forward htaken hne ?_⟩
    · unfold Repeater.takeMessage
      rw [hframe]
      exact hlock
    · have hcount := htaken.1
      simp only [Repeater.forwardCount, harriving, List.length_append] at hcount
      omega

theorem Keeps.passAssign (candidate : Nat) : Keeps s (s.passAssign candidate) := by
  unfold State.passAssign
  split
  · exact (Keeps.ofManager s s.clock { s.manager with address := candidate, source := .assigned } s.pending).trans
      (Keeps.replaceAssign candidate)
  · exact Keeps.refl s

end

end Sys2Proof.Machine
end


section
/-! PROOF. The references law read by number and by cell, and what taking a cell, assigning one, and the completions of the
directory operations do to it (R1, R11 to R19, R98). -/

namespace Sys2Proof.Machine

/-! ### The directory's entries -/

theorem insertEntry_perm (entries : List Entry) (e : Entry) : (insertEntry entries e).Perm (e :: entries) := by
  induction entries with
  | nil => exact List.Perm.refl _
  | cons x rest ih =>
    unfold insertEntry
    split
    · exact List.Perm.refl _
    · exact (ih.cons x).trans (List.Perm.swap e x rest)

/-- In the order of R1 a code names one entry. -/
theorem findEntry_of_mem {entries : List Entry} (h : (entries.map Entry.code).Pairwise fun a b => codeLess a b = true)
    {e : Entry} (he : e ∈ entries) : findEntry entries e.code = some e := by
  induction entries with
  | nil => cases he
  | cons x rest ih =>
    simp only [List.map_cons, List.pairwise_cons] at h
    rcases List.mem_cons.1 he with rfl | hmem
    · simp [findEntry]
    · have hless := h.1 e.code (List.mem_map_of_mem hmem)
      have hne : x.code ≠ e.code := fun hh => by
        rw [hh, codeLess_irrefl] at hless
        cases hless
      simp only [findEntry, if_neg hne]
      exact ih h.2 hmem

/-! ### The references law by number and by cell -/

/-- Directory, records and cell map agree: every table in its order, every entry's record occupied under its PRIMARY code,
every record named, and cells and cell lists the inverse of each other (R1, R19). -/
structure State.TablesAgree (s : State) : Prop where
  ordered : s.directory.ordered
  limited : s.directory.limited
  recordsAscend : tableAscending s.store.records
  cellsAscend : tableAscending s.board.cellMap
  entry : ∀ e ∈ s.directory.entries, ∃ q, s.record? e.record = some q ∧ (e.kind = .primary → q.code = e.code)
  occupied : ∀ r q, s.record? r = some q → r < 512 ∧ ∃ p ∈ s.directory.entries, p.kind = .primary ∧ p.record = r
  distinct : s.directory.primariesDistinct
  cell : ∀ c r, tableGet s.board.cellMap c = some r → c < 256 ∧ ∃ q, s.record? r = some q ∧ c ∈ q.cells
  owned : ∀ r q, s.record? r = some q →
    q.cells.length ≤ 2 ∧ q.cells.Nodup ∧ ∀ c ∈ q.cells, tableGet s.board.cellMap c = some r

theorem State.referencesAgree_iff (s : State) :
    s.referencesAgree ↔ s.TablesAgree ∧ s.entriesWatchRecords ∧ s.operationStands := by
  constructor
  · rintro ⟨h1, h2, ⟨h3, h3'⟩, h4, h5, h6, ⟨h7, h7'⟩, h8, h9, h10⟩
    refine ⟨⟨h1, h2, h3, h7, h4, fun r q hq => ?_, h6, fun c r hc => ?_, fun r q hq => ?_⟩, h9, h10⟩
    · exact ⟨h3' _ (mem_of_tableGet hq), h5 _ (mem_of_tableGet hq)⟩
    · exact h7' _ (mem_of_tableGet hc)
    · exact h8 _ (mem_of_tableGet hq)
  · rintro ⟨⟨h1, h2, h3, h4, h5, h6, h7, h8, h9⟩, hw, ho⟩
    refine ⟨h1, h2, ⟨h3, fun e he => ?_⟩, h5, fun e he => ?_, h7, ⟨h4, fun c hc => ?_⟩, fun e he => ?_, hw, ho⟩
    · exact (h6 e.1 e.2 (tableGet_of_mem h3 he)).1
    · exact (h6 e.1 e.2 (tableGet_of_mem h3 he)).2
    · exact h8 c.1 c.2 (tableGet_of_mem h4 hc)
    · exact h9 e.1 e.2 (tableGet_of_mem h3 he)

/-! ### One cell taken out of a list and named anew (R12, R98) -/

/-- Every cell that a record lists is assigned to it (R19). -/
def State.ownsCells (s : State) : Prop :=
  ∀ r q, s.record? r = some q → ∀ c ∈ q.cells, tableGet s.board.cellMap c = some r

theorem State.TablesAgree.ownsCells {s : State} (h : s.TablesAgree) : s.ownsCells := fun r q hq => (h.owned r q hq).2.2

section
variable {s : State}

/-- A cell taken out of the list that holds it leaves every list without it (R12, R98). -/
theorem State.record?_detach (h : s.ownsCells) (cell r : Nat) :
    (s.detachCell cell).record? r =
      (s.record? r).map fun q => { q with cells := q.cells.filter fun c => c ≠ cell } := by
  rw [State.record?_detachCell]
  split
  · cases s.record? r with
    | none => rfl
    | some q =>
      have hsame : (fun c => c != cell) = fun c => decide (c ≠ cell) := by
        funext c
        by_cases hc : c = cell <;> simp [hc]
      simp only [Option.map_some, hsame]
  · next hother =>
    cases hq : s.record? r with
    | none => rfl
    | some q =>
      have hnot : ∀ c ∈ q.cells, c ≠ cell := fun c hc hh => hother (hh ▸ h r q hq c hc)
      have hsame : q.cells.filter (fun c => c ≠ cell) = q.cells :=
        List.filter_eq_self.2 fun c hc => by simpa using hnot c hc
      simp only [Option.map_some, hsame]

theorem State.detachCell_cellMap (s : State) (cell : Nat) : (s.detachCell cell).board = s.board := by
  rw [State.detachCell_frame]

theorem State.record?_nameCell (s : State) (cell : Nat) (named : Option Nat) (r : Nat) :
    (s.nameCell cell named).record? r = s.record? r := rfl

/-- A cell taken for a record: no list holds it, and the cell map names the record for it (R12). -/
theorem State.takeCell_spec (h : s.ownsCells) (record cell : Nat) :
    (∀ r, (State.takeCell record s cell).record? r =
        (s.record? r).map fun q => { q with cells := q.cells.filter fun c => c ≠ cell }) ∧
      (∀ c, tableGet (State.takeCell record s cell).board.cellMap c =
        if c = cell then some record else tableGet s.board.cellMap c) ∧
      (State.takeCell record s cell).ownsCells := by
  have hread (r : Nat) : (State.takeCell record s cell).record? r =
      (s.record? r).map fun q => { q with cells := q.cells.filter fun c => c ≠ cell } := by
    rw [State.takeCell, State.record?_nameCell]
    exact State.record?_detach h cell r
  have hmap (c : Nat) : tableGet (State.takeCell record s cell).board.cellMap c =
      if c = cell then some record else tableGet s.board.cellMap c := by
    rw [State.takeCell, State.cell_nameCell, State.detachCell_cellMap]
  refine ⟨hread, hmap, fun r q hq c hc => ?_⟩
  rw [hread] at hq
  obtain ⟨old, hold, rfl⟩ := Option.map_eq_some_iff.1 hq
  obtain ⟨hc, hne⟩ := List.mem_filter.1 hc
  rw [hmap, if_neg (by simpa using hne)]
  exact h r old hold c hc

/-- Taking a cell changes the records and the cell map alone. -/
theorem State.takeCell_frame (record : Nat) (s : State) (cell : Nat) :
    State.takeCell record s cell = { s with
      store := { s.store with records := (State.takeCell record s cell).store.records }
      board := { s.board with cellMap := (State.takeCell record s cell).board.cellMap } } := by
  simp only [State.takeCell, State.nameCell]
  rw [State.detachCell_frame]

/-- A property of every record that does not rest on its cell list outlives the taking of a cell. -/
theorem State.detachCell_records {P : QuoteRecord → Prop} (hP : ∀ q cells, P q → P { q with cells := cells }) {cell : Nat}
    (h : ∀ e ∈ s.store.records, P e.2) : ∀ e ∈ (s.detachCell cell).store.records, P e.2 := by
  unfold State.detachCell
  split
  · exact h
  · split
    · exact h
    · next hq =>
      intro e he
      rcases mem_tableSet he with rfl | he
      · exact hP _ _ (h _ (mem_of_tableGet hq))
      · exact h e he

theorem State.detachCell_ascending (h : tableAscending s.store.records) (cell : Nat) :
    tableAscending (s.detachCell cell).store.records := by
  unfold State.detachCell
  split
  · exact h
  · split
    · exact h
    · exact tableSet_ascending h _ _

/-- Several cells taken for a record (R12). -/
theorem State.takeCells_spec (record : Nat) (cells : List Nat) (s : State) (h : s.ownsCells) :
    (∀ r, (cells.foldl (State.takeCell record) s).record? r =
        (s.record? r).map fun q => { q with cells := q.cells.filter fun c => c ∉ cells }) ∧
      ∀ c, tableGet (cells.foldl (State.takeCell record) s).board.cellMap c =
        if c ∈ cells then some record else tableGet s.board.cellMap c := by
  induction cells generalizing s with
  | nil =>
    refine ⟨fun r => ?_, fun c => by simp⟩
    rw [List.foldl_nil]
    cases s.record? r <;> simp
  | cons cell rest ih =>
    obtain ⟨hread, hmap, howns⟩ := State.takeCell_spec h record cell
    obtain ⟨ihread, ihmap⟩ := ih _ howns
    refine ⟨fun r => ?_, fun c => ?_⟩
    · rw [List.foldl_cons, ihread, hread, Option.map_map]
      congr 1
      funext q
      simp only [Function.comp_apply, List.filter_filter, List.mem_cons, not_or]
      congr 2
      funext c
      by_cases hc : c = cell <;> by_cases hrest : c ∈ rest <;> simp [hc, hrest]
    · rw [List.foldl_cons, ihmap, hmap]
      by_cases hc : c ∈ rest <;> by_cases hcell : c = cell <;> simp [hc, hcell]

theorem State.takeCells_frame (record : Nat) (cells : List Nat) (s : State) :
    cells.foldl (State.takeCell record) s = { s with
      store := { s.store with records := (cells.foldl (State.takeCell record) s).store.records }
      board := { s.board with cellMap := (cells.foldl (State.takeCell record) s).board.cellMap } } := by
  induction cells generalizing s with
  | nil => rfl
  | cons cell rest ih =>
    rw [List.foldl_cons, ih]
    rw [State.takeCell_frame]

theorem State.takeCells_ascending (record : Nat) (cells : List Nat) (s : State) :
    (tableAscending s.store.records → tableAscending (cells.foldl (State.takeCell record) s).store.records) ∧
      (tableAscending s.board.cellMap → tableAscending (cells.foldl (State.takeCell record) s).board.cellMap) := by
  induction cells generalizing s with
  | nil => exact ⟨id, id⟩
  | cons cell rest ih =>
    obtain ⟨ihrecords, ihcells⟩ := ih (State.takeCell record s cell)
    refine ⟨fun h => ihrecords (State.detachCell_ascending h cell), fun h => ihcells (State.nameCell_ascending ?_ _ _)⟩
    rw [State.detachCell_cellMap]
    exact h

theorem State.takeCells_records {P : QuoteRecord → Prop} (hP : ∀ q cells, P q → P { q with cells := cells }) (record : Nat)
    (cells : List Nat) {s : State} (h : ∀ e ∈ s.store.records, P e.2) :
    ∀ e ∈ (cells.foldl (State.takeCell record) s).store.records, P e.2 := by
  induction cells generalizing s with
  | nil => exact h
  | cons cell rest ih => exact ih (s := State.takeCell record s cell) (State.detachCell_records hP h)

/-! ### LOAD SYMBOL's changes (R11, R12) -/

/-- The numbers of the cells that a LOAD SYMBOL names (section 5.1). -/
def loadCells (a : LoadArgs) : List Nat := a.cells.map fun c => c.1 * 64 + c.2

/-- Sound arguments name at most two cells, each once and each below 256, and a record below 512 (R10). -/
theorem loadCells_sound {a : LoadArgs} (h : loadArgsSound a = true) :
    a.record < 512 ∧ (loadCells a).length ≤ 2 ∧ (loadCells a).Nodup ∧ ∀ c ∈ (loadCells a), c < 256 := by
  simp only [loadArgsSound, Bool.and_eq_true, decide_eq_true_eq, List.all_eq_true] at h
  obtain ⟨⟨⟨⟨⟨⟨-, hrecord⟩, -⟩, hlen⟩, hrange⟩, hnodup⟩, -⟩ := h
  refine ⟨hrecord, by simpa [loadCells] using hlen, ?_, fun c hc => ?_⟩
  · refine (List.nodup_map_iff_inj_on hnodup).2 fun x hx y hy hxy => ?_
    have h1 := hrange x hx
    have h2 := hrange y hy
    exact Prod.ext (by omega) (by omega)
  · obtain ⟨x, hx, rfl⟩ := List.mem_map.1 hc
    have := hrange x hx
    omega

/-- What LOAD SYMBOL's completion leaves in the tables (R11, R12). -/
theorem State.loadRecord_spec (a : LoadArgs) (h : s.ownsCells) :
    (∀ r, (s.loadRecord a).record? r = if r = a.record then some (loadedRecord a) else
        (s.record? r).map fun q => { q with cells := q.cells.filter fun c => c ∉ (loadCells a) }) ∧
      ∀ c, tableGet (s.loadRecord a).board.cellMap c =
        if c ∈ (loadCells a) then some a.record else tableGet s.board.cellMap c := by
  obtain ⟨hread, hmap⟩ := State.takeCells_spec a.record (loadCells a)
    (s.setEntries (insertEntry s.directory.entries { code := a.code, record := a.record, kind := .primary })) h
  refine ⟨fun r => ?_, hmap⟩
  refine (State.record?_setRecord _ a.record r (loadedRecord a)).trans ?_
  split
  · rfl
  · exact hread r

/-- LOAD SYMBOL's completion changes the directory's entries, the records, the cell map and the dirty queue alone. -/
theorem State.loadRecord_frame (s : State) (a : LoadArgs) :
    s.loadRecord a = { s with
      directory := { s.directory with
        entries := insertEntry s.directory.entries { code := a.code, record := a.record, kind := .primary } }
      store := { s.store with records := (s.loadRecord a).store.records }
      board := { s.board with
        cellMap := (s.loadRecord a).board.cellMap
        dirty := Sys2Proof.Machine.markCells s.board.dirty (loadCells a) } } := by
  unfold State.loadRecord
  simp only [State.markCells, State.setRecord, Board.mark]
  rw [State.takeCells_frame]
  rfl

theorem State.TablesAgree.loaded {a : LoadArgs} (h : s.TablesAgree) (hload : State.operationStands.holds s (.load a)) :
    (s.loadRecord a).TablesAgree := by
  obtain ⟨hsound, hroom, hfree, hcode⟩ := hload
  obtain ⟨hrecord, hlen, hnodup, hrange⟩ := loadCells_sound hsound
  obtain ⟨hread, hmap⟩ := State.loadRecord_spec a h.ownsCells
  have hentries : (s.loadRecord a).directory.entries =
      insertEntry s.directory.entries { code := a.code, record := a.record, kind := .primary } := by
    rw [State.loadRecord_frame]
  have hother {r : Nat} {q : QuoteRecord} (hq : s.record? r = some q) : r ≠ a.record := fun hh => by
    rw [hh, hfree] at hq
    cases hq
  have hkept {r : Nat} {q : QuoteRecord} (hq : s.record? r = some q) : (s.loadRecord a).record? r =
      some { q with cells := q.cells.filter fun c => c ∉ (loadCells a) } := by
    rw [hread, if_neg (hother hq), hq]
    rfl
  have hloaded : (s.loadRecord a).record? a.record = some (loadedRecord a) := by rw [hread, if_pos rfl]
  refine
    { ordered := ?_, limited := ?_, recordsAscend := ?_, cellsAscend := ?_, entry := ?_, occupied := ?_, distinct := ?_,
      cell := ?_, owned := ?_ }
  · unfold Directory.ordered
    rw [hentries]
    exact insertEntry_ordered h.ordered (lookupCode_none.1 hcode)
  · unfold Directory.limited
    rw [hentries, countEntries_insertEntry, countEntries_insertEntry]
    have hlimits := h.limited
    simp only [Directory.limited] at hlimits
    simp only [reduceCtorEq, if_true, if_false]
    omega
  · exact tableSet_ascending ((State.takeCells_ascending a.record (loadCells a) (s.setEntries (insertEntry
      s.directory.entries { code := a.code, record := a.record, kind := .primary }))).1 h.recordsAscend) _ _
  · exact (State.takeCells_ascending a.record (loadCells a) (s.setEntries (insertEntry
      s.directory.entries { code := a.code, record := a.record, kind := .primary }))).2 h.cellsAscend
  · intro e he
    rw [hentries, mem_insertEntry] at he
    rcases he with rfl | he
    · exact ⟨_, hloaded, fun _ => rfl⟩
    · obtain ⟨q, hq, hprimary⟩ := h.entry e he
      exact ⟨_, hkept hq, hprimary⟩
  · intro r q hq
    rw [hentries]
    rw [hread] at hq
    split at hq
    · next hr => exact ⟨hr ▸ hrecord, _, (mem_insertEntry _ _ _).2 (Or.inl rfl), rfl, hr.symm⟩
    · obtain ⟨old, hold, -⟩ := Option.map_eq_some_iff.1 hq
      obtain ⟨hlt, p, hp, hprimary⟩ := h.occupied r old hold
      exact ⟨hlt, p, (mem_insertEntry _ _ _).2 (Or.inr hp), hprimary⟩
  · unfold Directory.primariesDistinct
    rw [hentries]
    refine (((insertEntry_perm _ _).filter _).map Entry.record).nodup_iff.2 ?_
    simp only [List.filter_cons, decide_true, if_true, List.map_cons]
    refine List.nodup_cons.2 ⟨fun hmem => ?_, h.distinct⟩
    obtain ⟨e, he, hrec⟩ := List.mem_map.1 hmem
    obtain ⟨q, hq, -⟩ := h.entry e (List.mem_of_mem_filter he)
    exact hother hq hrec
  · intro c r hc
    rw [hmap] at hc
    split at hc
    · next hin =>
      obtain rfl := Option.some.inj hc
      exact ⟨hrange c hin, _, hloaded, hin⟩
    · next hout =>
      obtain ⟨hlt, q, hq, hcq⟩ := h.cell c r hc
      exact ⟨hlt, _, hkept hq, List.mem_filter.2 ⟨hcq, by simpa using hout⟩⟩
  · intro r q hq
    rw [hread] at hq
    split at hq
    · next hr =>
      obtain rfl := Option.some.inj hq
      exact ⟨hlen, hnodup, fun c hc => by rw [hmap, if_pos (show c ∈ loadCells a from hc), hr]⟩
    · obtain ⟨old, hold, rfl⟩ := Option.map_eq_some_iff.1 hq
      obtain ⟨holdlen, holdnodup, hown⟩ := h.owned r old hold
      refine ⟨(List.length_filter_le _ _).trans holdlen, holdnodup.filter _, fun c hc => ?_⟩
      obtain ⟨hc, hout⟩ := List.mem_filter.1 hc
      rw [hmap, if_neg (by simpa using hout)]
      exact hown c hc

/-! ### Aliases (R13, R14) -/

theorem State.TablesAgree.aliasAdded {code : Code} {r : Nat} (h : s.TablesAgree)
    (hadd : State.operationStands.holds s (.addAlias code r)) :
    (s.setEntries (insertEntry s.directory.entries { code := code, record := r, kind := .aliased })).TablesAgree := by
  obtain ⟨-, -, hoccupied, hroom, hcode⟩ := hadd
  refine
    { h with
      ordered := insertEntry_ordered h.ordered (lookupCode_none.1 hcode)
      limited := ?_
      entry := fun e he => ?_
      occupied := fun n q hq => ?_
      distinct := ?_ }
  · have hlimits := h.limited
    simp only [Directory.limited] at hlimits
    simp only [Directory.limited, State.setEntries, countEntries_insertEntry, reduceCtorEq, if_true, if_false]
    omega
  · rcases (mem_insertEntry _ _ _).1 he with rfl | he
    · obtain ⟨q, hq⟩ := Option.isSome_iff_exists.1 hoccupied
      exact ⟨q, hq, (nomatch ·)⟩
    · exact h.entry e he
  · obtain ⟨hlt, p, hp, hprimary⟩ := h.occupied n q hq
    exact ⟨hlt, p, (mem_insertEntry _ _ _).2 (Or.inr hp), hprimary⟩
  · refine (((insertEntry_perm _ _).filter _).map Entry.record).nodup_iff.2 ?_
    simpa [Directory.primariesDistinct] using h.distinct

/-- Entries that leave, none of them the PRIMARY entry of a record that stays, and no record changed. -/
theorem State.TablesAgree.entriesLeft (h : s.TablesAgree) {stays : Entry → Bool}
    (hprimary : ∀ e ∈ s.directory.entries, e.kind = .primary → stays e = true) :
    (s.setEntries (s.directory.entries.filter stays)).TablesAgree :=
  { h with
    ordered := filter_ordered h.ordered stays
    limited := ⟨(countEntries_filter_le _ _ _).trans h.limited.1, (countEntries_filter_le _ _ _).trans h.limited.2⟩
    entry := fun e he => h.entry e (List.mem_of_mem_filter he)
    occupied := fun r q hq => by
      obtain ⟨hlt, p, hp, hkind, hrec⟩ := h.occupied r q hq
      exact ⟨hlt, p, List.mem_filter.2 ⟨hp, hprimary p hp hkind⟩, hkind, hrec⟩
    distinct := h.distinct.sublist ((List.filter_sublist.filter _).map _) }

theorem State.TablesAgree.aliasDropped {code : Code} (h : s.TablesAgree)
    (hdrop : State.operationStands.holds s (.dropAlias code)) :
    (s.setEntries (s.directory.entries.filter fun e => decide (e.code ≠ code))).TablesAgree := by
  obtain ⟨found, hfound, hkind⟩ := hdrop
  refine h.entriesLeft fun e he hprimary => ?_
  simp only [decide_eq_true_eq]
  rintro rfl
  rw [findEntry_of_mem h.ordered he, Option.some.injEq] at hfound
  rw [hfound, hkind] at hprimary
  cases hprimary

/-! ### DROP SYMBOL's changes (R15 to R17) -/

/-- Several cells unassigned: the records stand, and the cell map forgets those cells. -/
theorem State.unassignCells_spec (cells : List Nat) (s : State) :
    (∀ c, tableGet (cells.foldl (fun x c => x.nameCell c none) s).board.cellMap c =
        if c ∈ cells then none else tableGet s.board.cellMap c) ∧
      (tableAscending s.board.cellMap →
        tableAscending (cells.foldl (fun x c => x.nameCell c none) s).board.cellMap) ∧
      cells.foldl (fun x c => x.nameCell c none) s =
        { s with board := { s.board with cellMap := (cells.foldl (fun x c => x.nameCell c none) s).board.cellMap } } := by
  induction cells generalizing s with
  | nil => exact ⟨fun c => by simp, id, rfl⟩
  | cons cell rest ih =>
    obtain ⟨ihmap, ihascend, ihframe⟩ := ih (s.nameCell cell none)
    refine ⟨fun c => ?_, fun h => ihascend (State.nameCell_ascending h cell none), ?_⟩
    · rw [List.foldl_cons, ihmap, State.cell_nameCell]
      by_cases hc : c ∈ rest <;> by_cases hcell : c = cell <;> simp [hc, hcell]
    · rw [List.foldl_cons, ihframe]
      rfl

/-- DROP SYMBOL's completion changes the directory's entries, the records, the cell map, the dirty queue and the desk alone. -/
theorem State.dropRecord_frame (s : State) (r : Nat) :
    s.dropRecord r = { s with
      directory := { s.directory with entries := s.directory.entries.filter fun e => e.record != r }
      store := { s.store with records := tableErase s.store.records r }
      board := { s.board with
        cellMap := (s.dropRecord r).board.cellMap
        dirty := Sys2Proof.Machine.markCells s.board.dirty (cellsOf (s.record? r)) }
      desk := s.desk.freeRecord r } := by
  unfold State.dropRecord
  simp only [State.markCells, Board.mark]
  rw [(State.unassignCells_spec _ _).2.2]
  rfl

theorem State.dropRecord_cellMap (s : State) (r : Nat) :
    (∀ c, tableGet (s.dropRecord r).board.cellMap c =
        if c ∈ cellsOf (s.record? r) then none else tableGet s.board.cellMap c) ∧
      (tableAscending s.board.cellMap → tableAscending (s.dropRecord r).board.cellMap) := by
  obtain ⟨hmap, hascend, -⟩ := State.unassignCells_spec (cellsOf (s.record? r))
    (s.setEntries (s.directory.entries.filter fun e => e.record != r))
  exact ⟨hmap, hascend⟩

/-- A dropped record is unoccupied, and every other reads as before (R16). -/
theorem State.record?_dropRecord (s : State) (r n : Nat) :
    (s.dropRecord r).record? n = if n = r then none else s.record? n := by
  rw [State.record?, State.dropRecord_frame]
  exact tableGet_tableErase s.store.records r n

theorem State.TablesAgree.dropped (h : s.TablesAgree) (r : Nat) : (s.dropRecord r).TablesAgree := by
  obtain ⟨hmap, hascend⟩ := State.dropRecord_cellMap s r
  have hread := State.record?_dropRecord s r
  have hentries : (s.dropRecord r).directory.entries = s.directory.entries.filter fun e => e.record != r := by
    rw [State.dropRecord_frame]
  refine
    { ordered := ?_, limited := ?_, recordsAscend := ?_, cellsAscend := hascend h.cellsAscend, entry := fun e he => ?_,
      occupied := fun n q hq => ?_, distinct := ?_, cell := fun c n hc => ?_, owned := fun n q hq => ?_ }
  · unfold Directory.ordered
    rw [hentries]
    exact filter_ordered h.ordered _
  · unfold Directory.limited
    rw [hentries]
    exact ⟨(countEntries_filter_le _ _ _).trans h.limited.1, (countEntries_filter_le _ _ _).trans h.limited.2⟩
  · rw [State.dropRecord_frame]
    exact tableErase_ascending h.recordsAscend r
  · rw [hentries, List.mem_filter] at he
    rw [hread, if_neg (by simpa using he.2)]
    exact h.entry e he.1
  · rw [hread] at hq
    split at hq
    · cases hq
    · next hn =>
      obtain ⟨hlt, p, hp, hkind, hrec⟩ := h.occupied n q hq
      rw [hentries]
      exact ⟨hlt, p, List.mem_filter.2 ⟨hp, by simpa [hrec] using hn⟩, hkind, hrec⟩
  · unfold Directory.primariesDistinct
    rw [hentries]
    exact h.distinct.sublist ((List.filter_sublist.filter _).map _)
  · rw [hmap] at hc
    split at hc
    · cases hc
    · next hout =>
      obtain ⟨hlt, q, hq, hcq⟩ := h.cell c n hc
      have hn : n ≠ r := fun hh => hout (by rw [← hh, hq]; exact hcq)
      exact ⟨hlt, q, by rw [hread, if_neg hn, hq], hcq⟩
  · rw [hread] at hq
    split at hq
    · cases hq
    · next hn =>
      obtain ⟨hlen, hnodup, hown⟩ := h.owned n q hq
      refine ⟨hlen, hnodup, fun c hc => ?_⟩
      have hout : c ∉ cellsOf (s.record? r) := fun hin => by
        cases hr : s.record? r with
        | none =>
          rw [hr] at hin
          cases hin
        | some q' =>
          rw [hr] at hin
          exact hn (Option.some.inj ((hown c hc).symm.trans ((h.owned r q' hr).2.2 c hin)))
      rw [hmap, if_neg hout]
      exact hown c hc

/-! ### SET CELL's changes (R98) -/

/-- What SET CELL acted on leaves in the tables: the cell names what was given, and the lists follow (R98). -/
theorem State.assignCell_spec {cell : Nat} {record : Option Nat} (h : s.ownsCells)
    (hrecord : ∀ r, record = some r → (s.record? r).isSome = true)
    (hmapped : ∀ r, tableGet s.board.cellMap cell = some r → ∃ q, s.record? r = some q ∧ cell ∈ q.cells) :
    (∀ r, (s.assignCell cell record).record? r = (s.record? r).map fun q =>
        { q with cells := if record = some r then (if cell ∈ q.cells then q.cells else q.cells ++ [cell])
                          else q.cells.filter fun c => c ≠ cell }) ∧
      ∀ c, tableGet (s.assignCell cell record).board.cellMap c =
        if c = cell then record else tableGet s.board.cellMap c := by
  cases record with
  | none =>
    refine ⟨fun r => ?_, fun c => ?_⟩
    · simp only [State.assignCell, State.record?_nameCell, State.record?_detach h, reduceCtorEq, if_false]
    · simp only [State.assignCell, State.cell_nameCell, State.detachCell_cellMap]
  | some n =>
    obtain ⟨q, hq⟩ := Option.isSome_iff_exists.1 (hrecord n rfl)
    by_cases hsame : tableGet s.board.cellMap cell = some n
    · have hassign : s.assignCell cell (some n) = s := by simp only [State.assignCell, if_pos hsame]
      rw [hassign]
      refine ⟨fun r => ?_, fun c => ?_⟩
      · cases hr : s.record? r with
        | none => rfl
        | some old =>
          simp only [Option.map_some, Option.some.injEq]
          by_cases hn : n = r
          · subst hn
            obtain ⟨q', hq', hin⟩ := hmapped n hsame
            obtain rfl := Option.some.inj (hr.symm.trans hq')
            simp [hin]
          · have hnot : ∀ c ∈ old.cells, c ≠ cell := fun c hc hh => by
              rw [← hh, h r old hr c hc, Option.some.injEq] at hsame
              exact hn hsame.symm
            have hfilter : old.cells.filter (fun c => c ≠ cell) = old.cells :=
              List.filter_eq_self.2 fun c hc => by simpa using hnot c hc
            simp only [hn, if_false, hfilter]
      · split
        · next hc => rw [hc, hsame]
        · rfl
    · have hdetached (r : Nat) := State.record?_detach h cell r
      have hcell : cell ∉ q.cells := fun hin => hsame (h n q hq cell hin)
      have hfilter : q.cells.filter (fun c => c ≠ cell) = q.cells :=
        List.filter_eq_self.2 fun c hc => by simpa using fun hh : c = cell => hcell (hh ▸ hc)
      have hq1 : (s.detachCell cell).record? n = some q := by
        rw [hdetached, hq]
        simp only [Option.map_some, hfilter]
      have hassign : s.assignCell cell (some n) =
          ((s.detachCell cell).setRecord n { q with cells := q.cells ++ [cell] }).nameCell cell (some n) := by
        simp only [State.assignCell, if_neg hsame, hq1]
      rw [hassign]
      refine ⟨fun r => ?_, fun c => ?_⟩
      · rw [State.record?_nameCell, State.record?_setRecord]
        split
        · next hr =>
          subst hr
          simp [hq, hcell]
        · next hr =>
          rw [hdetached]
          simp only [Option.some.injEq, Ne.symm hr, if_false]
      · rw [State.cell_nameCell]
        simp only [State.setRecord_board, State.detachCell_cellMap]

/-- SET CELL's effect changes the records and the cell map alone. -/
theorem State.assignCell_frame (s : State) (cell : Nat) (record : Option Nat) :
    s.assignCell cell record = { s with
      store := { s.store with records := (s.assignCell cell record).store.records }
      board := { s.board with cellMap := (s.assignCell cell record).board.cellMap } } := by
  unfold State.assignCell
  split
  · rw [State.detachCell_frame]
    rfl
  · split
    · rfl
    · simp only
      split
      · rfl
      · rw [State.detachCell_frame]
        rfl

theorem State.assignCell_ascending (s : State) (cell : Nat) (record : Option Nat) :
    (tableAscending s.store.records → tableAscending (s.assignCell cell record).store.records) ∧
      (tableAscending s.board.cellMap → tableAscending (s.assignCell cell record).board.cellMap) := by
  unfold State.assignCell
  split
  · exact ⟨fun h => State.detachCell_ascending h cell, fun h => by
      refine State.nameCell_ascending ?_ _ _
      rw [State.detachCell_cellMap]
      exact h⟩
  · split
    · exact ⟨id, id⟩
    · simp only
      split
      · exact ⟨id, id⟩
      · exact ⟨fun h => tableSet_ascending (State.detachCell_ascending h cell) _ _, fun h => by
          refine State.nameCell_ascending ?_ _ _
          simp only [State.setRecord_board, State.detachCell_cellMap]
          exact h⟩

theorem State.assignCell_records {P : QuoteRecord → Prop} (hP : ∀ q cells, P q → P { q with cells := cells }) {cell : Nat}
    {record : Option Nat} (h : ∀ e ∈ s.store.records, P e.2) : ∀ e ∈ (s.assignCell cell record).store.records, P e.2 := by
  have hdetached := State.detachCell_records hP (cell := cell) h
  unfold State.assignCell
  split
  · exact hdetached
  · split
    · exact h
    · simp only
      split
      · exact h
      · next hq =>
        intro e he
        rcases mem_tableSet he with rfl | he
        · exact hP _ _ (hdetached _ (mem_of_tableGet hq))
        · exact hdetached e he

/-- SET CELL acted on keeps the tables in agreement (R19, R98). -/
theorem State.TablesAgree.assigned {cell : Nat} {record : Option Nat} (h : s.TablesAgree) (hcell : cell < 256)
    (hrecord : ∀ r, record = some r → ∃ q, s.record? r = some q ∧ (q.cells.length < 2 ∨ cell ∈ q.cells)) :
    (s.assignCell cell record).TablesAgree := by
  obtain ⟨hread, hmap⟩ := State.assignCell_spec h.ownsCells
    (fun r hr => by obtain ⟨q, hq, -⟩ := hrecord r hr; rw [hq]; rfl) (fun r hr => (h.cell cell r hr).2)
  have hdirectory : (s.assignCell cell record).directory = s.directory := by rw [State.assignCell_frame]
  refine
    { ordered := hdirectory ▸ h.ordered, limited := hdirectory ▸ h.limited
      recordsAscend := (State.assignCell_ascending s cell record).1 h.recordsAscend
      cellsAscend := (State.assignCell_ascending s cell record).2 h.cellsAscend
      entry := fun e he => ?_, occupied := fun r q hq => ?_, distinct := hdirectory ▸ h.distinct, cell := fun c r hc => ?_,
      owned := fun r q hq => ?_ }
  · obtain ⟨q, hq, hprimary⟩ := h.entry e (hdirectory ▸ he)
    rw [hread e.record, hq]
    exact ⟨_, rfl, hprimary⟩
  · rw [hread] at hq
    obtain ⟨old, hold, -⟩ := Option.map_eq_some_iff.1 hq
    rw [hdirectory]
    exact h.occupied r old hold
  · rw [hmap] at hc
    split at hc
    · next hcc =>
      obtain ⟨q, hq, -⟩ := hrecord r hc
      refine ⟨hcc ▸ hcell, _, by rw [hread, hq]; rfl, ?_⟩
      simp only [hc, if_true, hcc]
      split
      · assumption
      · exact List.mem_append_right _ (List.mem_singleton.2 rfl)
    · next hcc =>
      obtain ⟨hlt, q, hq, hin⟩ := h.cell c r hc
      refine ⟨hlt, _, by rw [hread, hq]; rfl, ?_⟩
      simp only
      split
      · split
        · exact hin
        · exact List.mem_append_left _ hin
      · exact List.mem_filter.2 ⟨hin, by simpa using hcc⟩
  · rw [hread] at hq
    obtain ⟨old, hold, rfl⟩ := Option.map_eq_some_iff.1 hq
    obtain ⟨hlen, hnodup, hown⟩ := h.owned r old hold
    simp only
    split
    · next hr =>
      obtain ⟨q', hq', hroom⟩ := hrecord r hr
      obtain rfl := Option.some.inj (hold.symm.trans hq')
      split
      · refine ⟨hlen, hnodup, fun c hc => ?_⟩
        rw [hmap]
        split
        · exact hr
        · exact hown c hc
      · next hout =>
        refine ⟨?_, ?_, fun c hc => ?_⟩
        · rw [List.length_append, List.length_singleton]
          rcases hroom with hroom | hroom
          · omega
          · exact absurd hroom hout
        · refine List.nodup_append.2 ⟨hnodup, List.nodup_singleton _, fun x hx y hy hxy => hout ?_⟩
          rw [← List.mem_singleton.1 hy, ← hxy]
          exact hx
        · rw [hmap]
          split
          · exact hr
          · next hcc =>
            rcases List.mem_append.1 hc with hc | hc
            · exact hown c hc
            · exact absurd (List.mem_singleton.1 hc) hcc
    · refine ⟨(List.length_filter_le _ _).trans hlen, hnodup.filter _, fun c hc => ?_⟩
      obtain ⟨hc, hcc⟩ := List.mem_filter.1 hc
      rw [hmap, if_neg (by simpa using hcc)]
      exact hown c hc

end

end Sys2Proof.Machine
end


section
/-! PROOF. The directory operations keep the laws: taken, beginning to work and completed, and the desk requests served when
lookups resume (R4 to R18, R98, R128). -/

namespace Sys2Proof.Machine

section
variable {s : State}

/-! ### SET CELL (R98) -/

/-- What an operation was accepted on speaks of the entries and of which records are occupied alone. -/
theorem State.operationStands_congr {t : State} (hd : t.directory = s.directory)
    (hr : ∀ n, (t.record? n).isSome = (s.record? n).isSome) (h : s.operationStands) : t.operationStands := by
  have hnone (n : Nat) : t.record? n = none ↔ s.record? n = none := by
    rw [← Option.isNone_iff_eq_none, ← Option.isNone_iff_eq_none, ← Option.not_isSome, ← Option.not_isSome, hr]
  have hholds : ∀ work, State.operationStands.holds s work → State.operationStands.holds t work := by
    intro work hw
    cases work with
    | load a => exact ⟨hw.1, hd ▸ hw.2.1, (hnone _).2 hw.2.2.1, hd ▸ hw.2.2.2⟩
    | addAlias code n => exact ⟨hw.1, hw.2.1, (hr n).trans hw.2.2.1, hd ▸ hw.2.2.2⟩
    | dropAlias code => simpa only [State.operationStands.holds, hd] using hw
    | dropSymbol code n => simpa only [State.operationStands.holds, hd] using hw
  unfold State.operationStands at h ⊢
  rw [hd]
  split <;> simp_all

theorem Keeps.assignCell {cell : Nat} {record : Option Nat} (hcell : cell < 256)
    (hrecord : ∀ r, record = some r → ∃ q, s.record? r = some q ∧ (q.cells.length < 2 ∨ cell ∈ q.cells)) :
    Keeps s (s.assignCell cell record) := by
  have hreferences : s.referencesAgree → (s.assignCell cell record).referencesAgree := by
    intro h
    rw [State.referencesAgree_iff] at h ⊢
    obtain ⟨htables, hwatch, hstands⟩ := h
    obtain ⟨hread, -⟩ := State.assignCell_spec htables.ownsCells
      (fun r hr => by obtain ⟨q, hq, -⟩ := hrecord r hr; rw [hq]; rfl) (fun r hr => (htables.cell cell r hr).2)
    have hoccupied (n : Nat) : ((s.assignCell cell record).record? n).isSome = (s.record? n).isSome := by
      rw [hread, Option.isSome_map]
    refine ⟨htables.assigned hcell hrecord, fun st hst e he => ?_, ?_⟩
    · rw [State.assignCell_frame] at hst
      exact (hoccupied _).trans (hwatch st hst e he)
    · exact State.operationStands_congr (by rw [State.assignCell_frame]) hoccupied hstands
  have hrecords (h : s.recordsLawful) : ∀ e ∈ (s.assignCell cell record).store.records, e.2.lawful :=
    State.assignCell_records (fun q _ hq => hq) h.1
  have hboard (h : s.board.lawful) : tableAscending (s.assignCell cell record).board.cellMap :=
    (State.assignCell_ascending s cell record).2 h.2.1
  rw [State.assignCell_frame] at hreferences ⊢
  exact
    { Keeps.refl s with
      references := hreferences
      records := fun h => ⟨hrecords h, h.2⟩
      board := fun h => ⟨h.1, hboard h, h.2.2⟩
      pages := fun _ _ hp => hp
      feed := fun _ _ hf => hf }

/-! ### Operations taken and begun (R4 to R6) -/

/-- An operation accepted: its place held, the waiting messages marked (R5, R6). -/
theorem Keeps.accepted {work : DirWork} {held : Bool} (hidle : s.directory.operation = .idle)
    (hholds : State.operationStands.holds s work) (hclamped : ∀ a, work = .load a → settingsRanged a.settings)
    (hfree : held = true → s.feed.occupied < 4) :
    Keeps s { s with
      feed := { s.feed with reserved := s.feed.reserved + (if held then 1 else 0) }
      intake := { s.intake with queue := s.intake.queue.map fun m => { m with marked := true } }
      directory := { s.directory with operation :=
        if s.intake.queue = [] then .working work held else .draining work held } } := by
  refine
    { Keeps.refl s with
      references := fun h => ?_, records := fun h => ⟨h.1, ?_⟩, pages := fun _ _ hp => hp, feed := fun _ _ hf => hf,
      places := fun h => ?_, intake := fun h => ?_ }
  · rw [State.referencesAgree_iff] at h ⊢
    obtain ⟨htables, hwatch, -⟩ := h
    refine ⟨{ htables with }, hwatch, ?_⟩
    by_cases hq : s.intake.queue = []
    · simp only [State.operationStands, hq, if_true]
      exact hholds
    · simp only [State.operationStands, hq, if_false]
      exact hholds
  · by_cases hq : s.intake.queue = [] <;> cases work with
    | load a => simpa only [Directory.loadClamped, hq, if_true, if_false] using hclamped a rfl
    | addAlias code n => simp only [Directory.loadClamped, hq, if_true, if_false]
    | dropAlias code => simp only [Directory.loadClamped, hq, if_true, if_false]
    | dropSymbol code n => simp only [Directory.loadClamped, hq, if_true, if_false]
  · obtain ⟨hreserved, hfour⟩ := h
    rw [hidle] at hreserved
    simp only [DirOperation.placesHeld] at hreserved
    simp only [Repeater.occupied, Repeater.filledPlaces] at hfour hfree
    constructor
    · by_cases hq : s.intake.queue = [] <;> simp [hq, hreserved, DirOperation.placesHeld]
    · simp only [Repeater.occupied, Repeater.filledPlaces]
      cases held
      · simpa using hfour
      · have := hfree rfl
        simp only [if_true]
        omega
  · obtain ⟨hlen, hexpect, hsequence, -⟩ := h
    refine ⟨by simpa using hlen, hexpect, fun m hm => ?_, fun hm => ?_⟩
    · obtain ⟨m0, hm0, rfl⟩ := List.mem_map.1 hm
      exact hsequence m0 hm0
    · by_cases hq : s.intake.queue = []
      · simp [Intake.holdsMarked, hq] at hm
      · simp [Directory.isDraining, hq]

/-- DRAINING gives way to WORKING only when no marked message is left (R6). -/
theorem Keeps.beginWorking : Keeps s s.beginWorking := by
  unfold State.beginWorking
  split
  · next work held hop =>
    split
    · next hready =>
      refine
        { Keeps.refl s with
          references := fun h => ?_, records := fun h => ⟨h.1, ?_⟩, pages := fun _ _ hp => hp, feed := fun _ _ hf => hf,
          places := fun h => ⟨h.1.trans ?_, h.2⟩, intake := fun h => ⟨h.1, h.2.1, h.2.2.1, fun hm => ?_⟩ }
      · rw [State.referencesAgree_iff] at h ⊢
        obtain ⟨htables, hwatch, hstands⟩ := h
        refine ⟨{ htables with }, hwatch, ?_⟩
        rw [State.operationStands, hop] at hstands
        exact hstands
      · have hclamped := h.2
        unfold Directory.loadClamped at hclamped ⊢
        rw [hop] at hclamped
        cases work <;> exact hclamped
      · rw [hop]
        rfl
      · rw [hready.1] at hm
        cases hm
    · exact Keeps.refl s
  · exact Keeps.refl s

/-! ### Operations completed (R5, R7) -/

/-- A working operation done: its place filled, the directory IDLE, and tables that agree (R5, R7). -/
theorem Keeps.completed {work : DirWork} {held : Bool} {echo : Nat} {body : ReplyBody} {entries : List Entry}
    {records : List (Nat × QuoteRecord)} {board : Board} (hop : s.directory.operation = .working work held)
    (htables : s.referencesAgree → State.TablesAgree
      { s with directory := { s.directory with entries := entries }, store := { s.store with records := records },
               board := board })
    (hwatch : s.referencesAgree → ∀ st ∈ s.desk.stations, ∀ e ∈ st.watch, (tableGet records e.record).isSome = true)
    (hrecords : s.recordsLawful → ∀ e ∈ records, e.2.lawful) (hboard : s.board.lawful → board.lawful)
    (hbody : body.characters.length ≤ 56) :
    Keeps s (State.operationDone
      { s with directory := { s.directory with entries := entries }, store := { s.store with records := records },
               board := board } held echo body) := by
  refine
    { Keeps.refl s with
      references := fun h => ?_, records := fun h => ⟨hrecords h, trivial⟩, board := hboard, pages := fun _ _ hp => hp,
      feed := fun _ _ hf => ?_, places := fun h => ?_,
      intake := fun h => ⟨h.1, h.2.1, h.2.2.1, fun hm => ?_⟩ }
  · rw [State.referencesAgree_iff]
    exact ⟨{ htables h with }, hwatch h, trivial⟩
  · obtain ⟨hframed, hlock, h1, h2, h3, h4, h5⟩ := hf
    unfold State.operationDone
    cases held
    · exact ⟨hframed, hlock, h1, h2, h3, h4, h5⟩
    · refine ⟨hframed, hlock, h1, h2, h3, fun reply hmem => ?_, h5⟩
      rcases List.mem_append.1 hmem with hmem | hmem
      · exact h4 reply hmem
      · rw [List.mem_singleton.1 hmem, Reply.characters_length]
        exact Nat.add_le_add_right hbody 7
  · obtain ⟨hreserved, hfour⟩ := h
    rw [hop] at hreserved
    simp only [Repeater.occupied, Repeater.filledPlaces] at hfour
    unfold State.operationDone
    cases held
    · exact ⟨hreserved, hfour⟩
    · simp only [DirOperation.placesHeld, if_true] at hreserved
      refine ⟨by simp [hreserved, DirOperation.placesHeld], ?_⟩
      simp only [if_true, Repeater.occupied, Repeater.filledPlaces, List.length_append, List.length_singleton]
      omega
  · have hdraining := h.2.2.2 hm
    rw [Directory.isDraining, hop] at hdraining
    cases hdraining

/-- The records that watch entries name stay occupied where every occupied record does (R19). -/
theorem State.entriesWatchRecords_of {t : State} (hocc : ∀ n, (s.record? n).isSome = true → (t.record? n).isSome = true)
    (h : s.referencesAgree) : ∀ st ∈ s.desk.stations, ∀ e ∈ st.watch, (t.record? e.record).isSome = true :=
  fun st hst e he => hocc _ (((State.referencesAgree_iff s).1 h).2.1 st hst e he)

/-- What a WORKING operation was accepted on stands (R4). -/
theorem State.referencesAgree.working {work : DirWork} {held : Bool} (h : s.referencesAgree)
    (hop : s.directory.operation = .working work held) : State.operationStands.holds s work := by
  have hstands := ((State.referencesAgree_iff s).1 h).2.2
  rw [State.operationStands, hop] at hstands
  exact hstands

/-- A code and a record number, or a code alone, are within a reply (Table 10-4). -/
theorem length_codeRecord (code : Code) (r : Nat) : (ReplyBody.codeRecord code r).characters.length = 7 := by
  simp [ReplyBody.characters, two]

theorem length_code (code : Code) : (ReplyBody.code code).characters.length = 5 := by
  simp [ReplyBody.characters]

theorem Keeps.loadDone {a : LoadArgs} {held : Bool} (hop : s.directory.operation = .working (.load a) held) :
    Keeps s ((s.loadRecord a).operationDone held 4 (.codeRecord a.code a.record)) := by
  have htables (h : s.referencesAgree) : (s.loadRecord a).TablesAgree :=
    ((State.referencesAgree_iff s).1 h).1.loaded (h.working hop)
  have hwatch (h : s.referencesAgree) :
      ∀ st ∈ s.desk.stations, ∀ e ∈ st.watch, ((s.loadRecord a).record? e.record).isSome = true := by
    refine State.entriesWatchRecords_of (fun n hn => ?_) h
    rw [(State.loadRecord_spec a ((State.referencesAgree_iff s).1 h).1.ownsCells).1]
    split
    · rfl
    · simpa using hn
  have hrecords (h : s.recordsLawful) : ∀ e ∈ (s.loadRecord a).store.records, e.2.lawful := by
    intro e he
    rcases mem_tableSet he with rfl | he
    · have hclamped := h.2
      rw [Directory.loadClamped, hop] at hclamped
      exact loadedRecord_lawful hclamped
    · exact State.takeCells_records (P := QuoteRecord.lawful) (fun q _ hq => hq) a.record _
        (s := s.setEntries (insertEntry s.directory.entries { code := a.code, record := a.record, kind := .primary })) h.1 e he
  have hboard (h : s.board.lawful) : (s.loadRecord a).board.lawful := by
    refine Board.mark_lawful ?_ _
    have hascend := (State.takeCells_ascending a.record (loadCells a) (s.setEntries (insertEntry
      s.directory.entries { code := a.code, record := a.record, kind := .primary }))).2 h.2.1
    rw [State.setRecord_board]
    change Board.lawful ((loadCells a).foldl (State.takeCell a.record) (s.setEntries (insertEntry
      s.directory.entries { code := a.code, record := a.record, kind := .primary }))).board
    rw [State.takeCells_frame]
    exact ⟨h.1, hascend, h.2.2⟩
  rw [State.loadRecord_frame] at htables hwatch hrecords hboard ⊢
  exact Keeps.completed hop htables hwatch hrecords hboard (by rw [length_codeRecord]; decide)

theorem Keeps.aliasAddedDone {code : Code} {r : Nat} {held : Bool}
    (hop : s.directory.operation = .working (.addAlias code r) held) :
    Keeps s ((s.setEntries (insertEntry s.directory.entries { code := code, record := r, kind := .aliased })).operationDone
      held 5 (.codeRecord code r)) :=
  Keeps.completed (records := s.store.records) (board := s.board) hop
    (fun h => ((State.referencesAgree_iff s).1 h).1.aliasAdded (h.working hop))
    (State.entriesWatchRecords_of (t := s) fun _ hn => hn) (fun h => h.1) id (by rw [length_codeRecord]; decide)

theorem Keeps.aliasDroppedDone {code : Code} {held : Bool}
    (hop : s.directory.operation = .working (.dropAlias code) held) :
    Keeps s ((s.setEntries (s.directory.entries.filter fun e => decide (e.code ≠ code))).operationDone held 6 (.code code)) :=
  Keeps.completed (records := s.store.records) (board := s.board) hop
    (fun h => ((State.referencesAgree_iff s).1 h).1.aliasDropped (h.working hop))
    (State.entriesWatchRecords_of (t := s) fun _ hn => hn) (fun h => h.1) id (by rw [length_code]; decide)

/-- A freed record leaves every list and every page, and that alone keeps the laws (R17). -/
theorem Keeps.freeRecord (r : Nat) : Keeps s { s with desk := s.desk.freeRecord r } := by
  have hstations : Keeps s { s with desk := { s.desk with stations := s.desk.stations.map (Station.dropEntry r) } } :=
    Keeps.ofDesk (DeskKeeps.ofMap fun _ => StationKeeps.dropEntry r)
  exact hstations.trans (Keeps.mapPages
    (s := { s with desk := { s.desk with stations := s.desk.stations.map (Station.dropEntry r) } }) _
    (Page.withoutRecord_room r))

/-- After the entries for a freed record have left, no list names it (R17). -/
theorem Desk.freeRecord_watch {d : Desk} {r : Nat} : ∀ st ∈ (d.freeRecord r).stations, ∀ e ∈ st.watch, e.record ≠ r := by
  intro st hst e he
  obtain ⟨old, -, rfl⟩ := List.mem_map.1 hst
  have hne := (List.mem_filter.1 he).2
  simpa using hne

theorem Keeps.dropDone {code : Code} {r : Nat} {held : Bool}
    (hop : s.directory.operation = .working (.dropSymbol code r) held) :
    Keeps s ((s.dropRecord r).operationDone held 7 (.codeRecord code r)) := by
  have htables (h : State.referencesAgree { s with desk := s.desk.freeRecord r }) : (s.dropRecord r).TablesAgree := by
    have hs := ((State.referencesAgree_iff _).1 h).1
    exact State.TablesAgree.dropped (s := s) { hs with } r
  have hwatch (h : State.referencesAgree { s with desk := s.desk.freeRecord r }) :
      ∀ st ∈ (s.desk.freeRecord r).stations, ∀ e ∈ st.watch, ((s.dropRecord r).record? e.record).isSome = true := by
    intro st hst e he
    rw [State.record?_dropRecord, if_neg (Desk.freeRecord_watch st hst e he)]
    exact ((State.referencesAgree_iff _).1 h).2.1 st hst e he
  have hrecords (h : State.recordsLawful { s with desk := s.desk.freeRecord r }) :
      ∀ e ∈ (s.dropRecord r).store.records, e.2.lawful := by
    rw [State.dropRecord_frame]
    exact fun e he => h.1 e (List.mem_of_mem_filter he)
  have hboard (h : s.board.lawful) : (s.dropRecord r).board.lawful := by
    have hascend := (State.dropRecord_cellMap s r).2 h.2.1
    rw [State.dropRecord_frame]
    exact ⟨markCells_nodup h.1 _, hascend, h.2.2⟩
  refine (Keeps.freeRecord r).trans ?_
  rw [State.dropRecord_frame] at htables hwatch hrecords hboard ⊢
  exact Keeps.completed (s := { s with desk := s.desk.freeRecord r }) hop (fun h => { htables h with }) hwatch hrecords hboard
    (by rw [length_codeRecord]; decide)

/-! ### Requests (R128, R144 to R152) -/

/-- A record found by a lookup is occupied (R3, R19). -/
theorem State.lookup_occupied {code : Code} {r : Nat} (h : lookupCode s.directory.entries code = some r)
    (hr : s.referencesAgree) : (s.record? r).isSome = true := by
  obtain ⟨e, he, -, rfl⟩ := lookupCode_some h
  obtain ⟨q, hq, -⟩ := ((State.referencesAgree_iff s).1 hr).1.entry e he
  rw [hq]
  rfl

theorem Keeps.watchAdd {t u : Transaction} {r : Nat} (hu : s.desk.transaction = some u) (hstation : t.station = u.station)
    (hr : s.referencesAgree → (s.record? r).isSome = true) (above below : Option Nat) (move : Bool) :
    Keeps s (s.watchAdd t r above below move) := by
  unfold State.watchAdd
  split
  · exact (Keeps.modifyStation fun _ _ => StationKeeps.updateEntry r above below move).trans
      (Keeps.replyWith (s := s.modifyStation t.station (Station.updateEntry r above below move)) hu hstation _)
  · next hnew =>
    split
    · exact Keeps.replyWith hu hstation _
    · next hroom =>
      refine (Keeps.modifyStation fun st hst => StationKeeps.addEntry above below move (fun e he hh => hnew ?_) ?_ hr).trans
        (Keeps.replyWith (s := s.modifyStation t.station (Station.addEntry r above below move)) hu hstation _)
      · simp only [State.holdsEntry, State.watchOf, hst, List.any_eq_true, decide_eq_true_eq]
        exact ⟨e, he, hh⟩
      · simpa only [State.watchOf, hst, Nat.not_le] using hroom

/-- A transaction whose page lost lines is with the same station (R17). -/
theorem Desk.dropWatch_transaction {d : Desk} {u : Transaction} (hu : d.transaction = some u) (n r : Nat) :
    ∃ v, (d.dropWatch n r).transaction = some v ∧ v.station = u.station := by
  simp only [Desk.dropWatch, Desk.mapPages, Desk.modifyStation, hu, Option.map_some]
  split <;> exact ⟨_, rfl, rfl⟩

theorem Keeps.watchDropped {t u : Transaction} (hu : s.desk.transaction = some u) (hstation : t.station = u.station) (r : Nat) :
    Keeps s (s.watchDrop t r) := by
  unfold State.watchDrop
  split
  · obtain ⟨v, hv, hstation'⟩ := Desk.dropWatch_transaction hu t.station r
    exact (Keeps.dropWatch t.station r).trans (Keeps.replyWith (s := { s with desk := s.desk.dropWatch t.station r }) hv
      (hstation.trans hstation'.symm) _)
  · exact Keeps.replyWith hu hstation _

theorem Keeps.serveLookup {t u : Transaction} (hu : s.desk.transaction = some u) (hstation : t.station = u.station)
    (request : LookupRequest) : Keeps s (s.serveLookup t request) := by
  unfold State.serveLookup
  split <;> split
  · exact Keeps.replyWith hu hstation _
  · exact Keeps.replyWith hu hstation _
  · exact Keeps.replyWith hu hstation _
  · exact Keeps.replyWith hu hstation _
  · exact Keeps.replyWith hu hstation _
  · next hfound => exact Keeps.watchAdd hu hstation (State.lookup_occupied hfound) _ _ _
  · exact Keeps.replyWith hu hstation _
  · exact Keeps.watchDropped hu hstation _

theorem Keeps.serveHeld : Keeps s s.serveHeld := by
  unfold State.serveHeld
  split
  · exact Keeps.refl s
  · next t ht =>
    split
    · exact Keeps.refl s
    · split
      · exact Keeps.refl s
      · exact Keeps.serveLookup ht rfl _

theorem Keeps.lookupRequest {t : Transaction} (ht : s.desk.transaction = some t) (request : LookupRequest) :
    Keeps s (s.lookupRequest t request) := by
  unfold State.lookupRequest
  split
  · exact Keeps.ofDesk (DeskKeeps.ofPhase rfl rfl ht rfl id)
  · exact Keeps.serveLookup ht rfl _

/-- A whole request frame taken, or a stray one, whatever serves it keeping the laws (R128, R134). -/
theorem Keeps.takeRequest {serve : Transaction → State}
    (h : ∀ t, s.desk.transaction = some t → Keeps s (serve t)) : Keeps s (s.takeRequest serve) := by
  unfold State.takeRequest
  split
  · exact Keeps.refl s
  · next t ht =>
    split
    · exact h t ht
    · exact Keeps.strayFrame

theorem Keeps.serveTested {t : Transaction} (ht : s.desk.transaction = some t) (kind : Option RequestKind) (sound : Bool)
    {serve : Transaction → State} (h : sound = true → Keeps s (serve t)) : Keeps s (s.serveTested kind sound t serve) := by
  unfold State.serveTested
  split
  · exact Keeps.replyWith ht rfl _
  · split
    · exact Keeps.replyWith ht rfl _
    · next hsound => exact h (by simpa using hsound)

theorem Keeps.setModeFor {t : Transaction} (ht : s.desk.transaction = some t) (mode : Option StationMode) (interval : Nat) :
    Keeps s (s.setModeFor t mode interval) := by
  unfold State.setModeFor
  split
  · exact Keeps.refl s
  · next m =>
    exact (Keeps.modifyStation fun st _ => StationKeeps.setMode s.clock m interval).trans
      (Keeps.replyWith (s := s.modifyStation t.station (Station.setMode s.clock m interval)) ht rfl _)

theorem Keeps.checkErrorFrame : Keeps s s.checkErrorFrame :=
  Keeps.takeRequest fun t ht => (Keeps.modifyStation fun _ _ => StationKeeps.countCheckError).trans
    (Keeps.replyWith (s := s.modifyStation t.station Station.countCheckError) ht rfl _)

end

end Sys2Proof.Machine
end


section
/-! PROOF. Each command of the unit manager's table as the state it makes and the reply it places, and that it keeps the laws
(R167, R180, Table 9-1). -/

namespace Sys2Proof.Machine

/-! ### Bodies of a bounded length (Table 10-4) -/

/-- The lists that a body renders are as long as Table 10-4 gives them. -/
def ReplyBody.rendered : ReplyBody → Prop
  | .statusBoard report => report.panels.length = 4
  | .recordRing ring => ring.length ≤ 4
  | .watchEntries entries => entries.length ≤ 4
  | .watchAlerts alerts => alerts.length ≤ 6
  | _ => True

theorem length_flatten_map {α : Type} {f : α → List Byte} {width : Nat} (h : ∀ a, (f a).length = width) (l : List α) :
    ((l.map f).flatten).length = width * l.length := by
  induction l with
  | nil => rfl
  | cons a rest ih =>
    simp only [List.map_cons, List.flatten_cons, List.length_append, h, ih, List.length_cons]
    rw [Nat.mul_succ, Nat.add_comm]

theorem length_slotCharacters (slot : Option (Nat × Nat)) : (slotCharacters slot).length = 2 := by
  cases slot <;> simp [slotCharacters]

/-- A body's characters are 56 at most (Table 10-4). -/
theorem ReplyBody.characters_length {body : ReplyBody} (h : body.rendered) : body.characters.length ≤ 56 := by
  cases body with
  | statusBoard report =>
    have hpanels := length_flatten_map (f := fun p : Panel => one p.state.number ++ one p.failures) (width := 2)
      (fun p => by simp [one]) report.panels
    simp only [ReplyBody.rendered] at h
    simp only [ReplyBody.characters, BoardReport.characters, List.length_append, hpanels, h]
    simp [one, two, flags]
  | recordRing ring =>
    simp only [ReplyBody.rendered] at h
    simp only [ReplyBody.characters]
    rw [length_flatten_map (width := 9) (fun p => by simp [printCharacters, one, two])]
    omega
  | watchEntries entries =>
    simp only [ReplyBody.rendered] at h
    simp only [ReplyBody.characters]
    rw [length_flatten_map (width := 14) (fun p => by simp [watchCharacters, two, priceCharacters, flags])]
    omega
  | watchAlerts alerts =>
    simp only [ReplyBody.rendered] at h
    simp only [ReplyBody.characters]
    rw [length_flatten_map (width := 6) (fun p => by simp [alertCharacters, one, two, priceCharacters])]
    omega
  | _ =>
    simp [ReplyBody.characters, one, two, flags, priceCharacters, timeCharacters, quoteSideCharacters, settingsCharacters,
      cellListCharacters, length_slotCharacters, UnitReport.characters, LampConditions.characters, TapeReport.characters,
      LineReport.characters, FeedReport.characters, Counters.inOrder, StationCounters.inOrder]

/-! ### What a rule answers (R180) -/

/-- A rule makes of a state another one, and places its reply beside it for an addressed command (R167, R180). -/
def Answers (deal : Route → State → State) (s : State) (echo : Nat) (status : Status) (body : ReplyBody) (u : State) : Prop :=
  deal .broadcast s = u ∧ deal .place s.reservePlace = u.replied echo status body

theorem Answers.row {deal : Route → State → State} {s u : State} {echo : Nat} {status : Status} {body : ReplyBody}
    (h : Answers deal s echo status body u) {row : Nat → Instr}
    (hrow : ∀ addr, exec (row addr) s = .next (s.passCommand addr deal)) : s.answersAs row echo status body u :=
  State.answersAs_of deal hrow h.1 h.2

/-- A rule's answer that keeps the laws and takes up no place of the reply queue but its own. -/
structure Answered (deal : Route → State → State) (s u : State) (echo : Nat) (status : Status) (body : ReplyBody) : Prop where
  answers : Answers deal s echo status body u
  keeps : Keeps s u
  occupied : u.feed.occupied ≤ s.feed.occupied
  body : u.recordsLawful → u.board.lawful → body.rendered

/-- A refusal leaves the state as it is (R180). -/
theorem Answered.refused {deal : Route → State → State} {s : State} {echo : Nat} {status : Status}
    (h : Answers deal s echo status .empty s) : Answered deal s s echo status .empty :=
  ⟨h, Keeps.refl s, le_rfl, fun _ _ => trivial⟩

/-- A command passed by its address keeps the laws when its rule's answer does (R167). -/
theorem Keeps.passed {deal : Route → State → State} {s u : State} {echo : Nat} {status : Status} {body : ReplyBody}
    (h : Answered deal s u echo status body) (addr : Nat) : Keeps s (s.passCommand addr deal) := by
  rcases State.passCommand_cases s addr deal with ⟨-, hp⟩ | ⟨htakes, hp⟩ | ⟨-, -, hp⟩ | ⟨-, -, hp⟩ <;> rw [hp]
  · rw [h.answers.1]
    exact h.keeps
  · rw [h.answers.2]
    exact h.keeps.trans (Keeps.replied (lt_of_le_of_lt h.occupied htakes.2.2.2) fun hr hb =>
      ReplyBody.characters_length (h.body hr hb))
  · exact Keeps.countUntaken
  · exact Keeps.refl s

/-! ### The restarts (R183, R184) -/

section
variable {s : State}

/-- The repeater restarted keeps receiving and forwarding and empties the reply queue (R177). -/
theorem Repeater.restarted_lawful {f : Repeater} (h : f.lawful) : f.restarted.lawful := by
  obtain ⟨hframed, hlock, h1, h2, h3, -, h5⟩ := h
  have hahead : f.restarted.ahead = f.ahead := by
    cases hout : f.out <;> simp only [Repeater.restarted, Repeater.ahead, Repeater.unsent, hout, FeedOut.afterRestart]
  have hmessage : f.restarted.out = .message → f.out = .message := by
    cases hout : f.out <;> simp [Repeater.restarted, hout, FeedOut.afterRestart]
  have hafter : f.restarted.afterSending = f.afterSending := by
    cases hout : f.out <;> simp only [Repeater.restarted, Repeater.afterSending, hout, FeedOut.afterRestart]
  exact ⟨hframed, hlock, hahead.symm ▸ h1, fun hm => h2 (hmessage hm), hafter.symm ▸ h3, fun _ hm => (nomatch hm), h5⟩

theorem Repeater.restarted_occupied (f : Repeater) : f.restarted.occupied = 0 := by
  cases hout : f.out <;> simp [Repeater.restarted, Repeater.occupied, Repeater.filledPlaces, FeedOut.afterRestart, hout]

theorem Board.restarted_lawful {cellMap : List (Nat × Nat)} (h : tableAscending cellMap) (sweepAt : Reading) :
    Board.lawful { cellMap := cellMap, dirty := [], block := none, panels := List.replicate 4 Panel.fresh,
                   pause := .running, sweepAt := sweepAt } := by
  refine ⟨List.nodup_nil, h, rfl, fun p hp => ?_, ⟨(nomatch ·), (nomatch ·)⟩, fun blk hblk => nomatch hblk⟩
  rw [List.eq_of_mem_replicate hp]
  exact Nat.zero_le _

theorem Tape.cleared_lawful : Tape.cleared.lawful :=
  ⟨⟨rfl, rfl⟩, ⟨Nat.zero_le _, Nat.zero_le _, (nomatch ·), fun _ => rfl⟩,
    ⟨Nat.zero_le _, Nat.zero_le _, List.nodup_nil, Nat.zero_le _⟩⟩

theorem Counters.zero_counted : Counters.zero.counted := by
  unfold Counters.counted
  decide

theorem Params.defaults_lawful : Params.defaults.ordered ∧ Params.defaults.ranged := by
  unfold Params.ordered Params.ranged
  decide

/-- The desk line restarted: FREE with its slot empty, each station's record as the restart leaves it (R141, R142). -/
theorem DeskKeeps.ofRestart {s' : State} (stuck : Reading) {f : Station → Station} (hs : s'.desk = s.desk)
    (hlaws : ∀ st, st.lawful → (f st).lawful ∧ (f st).runAgrees) (hcounted : ∀ st, (f st).counted)
    (hshort : ∀ st, st.watch.length ≤ 12 → (f st).watch.length ≤ 12)
    (hwatch : s'.referencesAgree → ∀ st ∈ s.desk.stations, ∀ e ∈ (f st).watch, (s'.record? e.record).isSome = true) :
    DeskKeeps s' (s.desk.restarted stuck (s.desk.stations.map f)) where
  watch hr st' hst' e he := by
    obtain ⟨st, hst, rfl⟩ := List.mem_map.1 hst'
    exact hwatch hr st hst e he
  counted _ st' hst' := by
    obtain ⟨st, -, rfl⟩ := List.mem_map.1 hst'
    exact hcounted st
  lists hl st' hst' := by
    obtain ⟨st, hst, rfl⟩ := List.mem_map.1 hst'
    exact hshort st (hl st (hs ▸ hst))
  laws hst _ := by
    rw [hs] at hst
    refine ⟨⟨(List.length_map ..).trans hst.1, fun st' hst' => ?_⟩, fun st' hst' => ?_, rfl, trivial⟩ <;>
      obtain ⟨st, hmem, rfl⟩ := List.mem_map.1 hst'
    · exact (hlaws st (hst.2 st hmem)).1
    · exact (hlaws st (hst.2 st hmem)).2
  pages _ _ _ := ⟨fun _ _ ht => (nomatch ht), fun _ _ ht => (nomatch ht), fun _ hp => (nomatch hp)⟩

theorem Station.keptRestart_counted (now : Reading) (st : Station) : (st.keptRestart now).counted :=
  ⟨Nat.zero_le _, Nat.zero_le _, Nat.zero_le _, Nat.zero_le _, Nat.zero_le _⟩

theorem Station.clearedRestart_counted (st : Station) : st.clearedRestart.counted :=
  ⟨Nat.zero_le _, Nat.zero_le _, Nat.zero_le _, Nat.zero_le _, Nat.zero_le _⟩

/-- The places after a restart: none reserved, none filled, no operation held (R5, R177). -/
theorem State.placesSound_restarted {t : State} {f : Repeater} (hfeed : t.feed = f.restarted)
    (hop : t.directory.operation = .idle) : t.placesSound := by
  refine ⟨by rw [hfeed, hop]; rfl, ?_⟩
  rw [hfeed, Repeater.restarted_occupied]
  exact Nat.zero_le _

theorem State.record?_keptRestart (s : State) (r : Nat) :
    s.restartKeep.record? r = (s.record? r).map QuoteRecord.recentred :=
  tableGet_map QuoteRecord.recentred s.store.records r

theorem State.restartKeep_references (h : s.referencesAgree) : s.restartKeep.referencesAgree := by
  rw [State.referencesAgree_iff] at h ⊢
  obtain ⟨htables, hwatch, -⟩ := h
  have hread := State.record?_keptRestart s
  have hback {r : Nat} {q : QuoteRecord} (hq : s.restartKeep.record? r = some q) :
      ∃ old, s.record? r = some old ∧ old.recentred = q := by
    rw [hread] at hq
    exact Option.map_eq_some_iff.1 hq
  refine ⟨{ ordered := htables.ordered, limited := htables.limited, recordsAscend := ?_, cellsAscend := htables.cellsAscend,
            entry := fun e he => ?_, occupied := fun r q hq => ?_, distinct := htables.distinct, cell := fun c r hc => ?_,
            owned := fun r q hq => ?_ }, fun st' hst' e he => ?_, trivial⟩
  · have hkeys : (s.restartKeep.store.records).map Prod.fst = s.store.records.map Prod.fst := by
      simp [State.restartKeep, QuoteStore.keptRestart]
    rw [tableAscending, hkeys]
    exact htables.recordsAscend
  · obtain ⟨q, hq, hprimary⟩ := htables.entry e he
    exact ⟨q.recentred, by rw [hread, hq]; rfl, hprimary⟩
  · obtain ⟨old, hold, -⟩ := hback hq
    exact htables.occupied r old hold
  · obtain ⟨hlt, q, hq, hin⟩ := htables.cell c r hc
    exact ⟨hlt, q.recentred, by rw [hread, hq]; rfl, hin⟩
  · obtain ⟨old, hold, rfl⟩ := hback hq
    exact htables.owned r old hold
  · obtain ⟨st, hst, rfl⟩ := List.mem_map.1 hst'
    obtain ⟨e0, he0, rfl⟩ := List.mem_map.1 he
    rw [hread, Option.isSome_map]
    exact hwatch st hst e0 he0

theorem Keeps.restartKeep : Keeps s s.restartKeep := by
  have hdesk : DeskKeeps s s.restartKeep.desk :=
    DeskKeeps.ofRestart (s := s) (s' := s) (after s.clock (s.params.deskStuck * 100)) (f := Station.keptRestart s.clock) rfl
      (fun st h => Station.keptRestart_laws h s.clock) (Station.keptRestart_counted s.clock)
      (fun st h => by simpa [Station.keptRestart] using h) fun hr st hst e he => by
        obtain ⟨e0, he0, rfl⟩ := List.mem_map.1 he
        exact ((State.referencesAgree_iff s).1 hr).2.1 st hst e0 he0
  exact
    { references := State.restartKeep_references
      records := fun h => ⟨fun e he => by
        obtain ⟨e0, he0, rfl⟩ := List.mem_map.1 he
        exact QuoteRecord.recentred_lawful (h.1 e0 he0), trivial⟩
      tapes := fun _ => ⟨Tape.cleared_lawful, Tape.cleared_lawful⟩
      board := fun h => Board.restarted_lawful h.2.1 _
      ordered := id
      ranged := id
      counters := fun _ => Counters.zero_counted
      stationCounts := hdesk.counted
      lists := hdesk.lists
      desk := hdesk.laws
      pages := hdesk.pages
      feed := fun _ _ h => Repeater.restarted_lawful h
      places := fun _ => State.placesSound_restarted (f := s.feed) rfl rfl
      intake := fun h => ⟨Nat.zero_le _, h.2.1, fun _ hm => (nomatch hm), (nomatch ·)⟩ }

/-- Empty tables agree (R21). -/
theorem State.referencesAgree_empty {t : State} (hd : t.directory = Directory.cleared) (hr : t.store.records = [])
    (hc : t.board.cellMap = []) (hw : ∀ st ∈ t.desk.stations, st.watch = []) : t.referencesAgree := by
  have hread (r : Nat) : t.record? r = none := by rw [State.record?, hr]; rfl
  rw [State.referencesAgree_iff]
  refine ⟨⟨?_, ?_, ?_, ?_, fun e he => ?_, fun r q hq => ?_, ?_, fun c r hcr => ?_, fun r q hq => ?_⟩, fun st hst e he => ?_, ?_⟩
  · rw [Directory.ordered, hd]; exact List.Pairwise.nil
  · rw [Directory.limited, hd]; exact ⟨Nat.zero_le _, Nat.zero_le _⟩
  · rw [tableAscending, hr]; exact List.Pairwise.nil
  · rw [tableAscending, hc]; exact List.Pairwise.nil
  · rw [hd] at he; cases he
  · rw [hread] at hq; cases hq
  · rw [Directory.primariesDistinct, hd]; exact List.nodup_nil
  · rw [hc] at hcr; cases hcr
  · rw [hread] at hq; cases hq
  · rw [hw st hst] at he; cases he
  · rw [State.operationStands, hd]; trivial

theorem Keeps.restartClear : Keeps s s.restartClear := by
  have hdesk : DeskKeeps s s.restartClear.desk :=
    DeskKeeps.ofRestart (s := s) (s' := s) (after s.clock (Params.defaults.deskStuck * 100)) (f := Station.clearedRestart) rfl
      (fun _ _ => Station.clearedRestart_laws) Station.clearedRestart_counted
      (fun _ _ => Nat.zero_le _) fun _ _ _ _ he => (nomatch he)
  exact
    { references := fun _ => State.referencesAgree_empty rfl rfl rfl fun st' hst' => by
        obtain ⟨st, -, rfl⟩ := List.mem_map.1 hst'
        rfl
      records := fun _ => ⟨fun _ he => (nomatch he), trivial⟩
      tapes := fun _ => ⟨Tape.cleared_lawful, Tape.cleared_lawful⟩
      board := fun _ => Board.restarted_lawful List.Pairwise.nil _
      ordered := fun _ => Params.defaults_lawful.1
      ranged := fun _ => Params.defaults_lawful.2
      counters := fun _ => Counters.zero_counted
      stationCounts := hdesk.counted
      lists := hdesk.lists
      desk := hdesk.laws
      pages := hdesk.pages
      feed := fun _ _ h => Repeater.restarted_lawful h
      places := fun _ => State.placesSound_restarted (f := s.feed) rfl rfl
      intake := fun _ => ⟨Nat.zero_le _, fun _ he => (nomatch he), fun _ hm => (nomatch hm), (nomatch ·)⟩ }

end

/-! ### The state after power-on (R178, R185) -/

theorem Station.fresh_lawful : Station.fresh.lawful ∧ Station.fresh.runAgrees :=
  Station.clearedRestart_laws (st := Station.fresh)

theorem Repeater.cleared_lawful (clock : Reading) : (Repeater.cleared clock).lawful := by
  refine ⟨trivial, ⟨(nomatch ·), fun _ => ⟨rfl, rfl⟩, Nat.zero_le _, Nat.zero_le _, fun _ => Nat.zero_le _, (nomatch ·)⟩, ?_,
    (nomatch ·), fun m hm => (nomatch hm), fun r hr => (nomatch hr), Nat.succ_pos _, (nomatch ·)⟩
  simp [Repeater.cleared, Repeater.forwardCount, Repeater.ahead, Repeater.unsent]

/-- What power-on leaves keeps every law (R21, R55, R96, R116, R141, R161, R176, R185). -/
theorem State.powered_laws (clock : Reading) (straps : BitVec 6) (attn busy : Bool) :
    let t := State.powered clock straps attn busy
    t.referencesAgree ∧ t.recordsLawful ∧ t.tapesLawful ∧ t.board.lawful ∧ t.params.ordered ∧ t.params.ranged ∧
      t.counters.counted ∧ t.desk.countersCounted ∧ t.desk.stationsLawful ∧ t.desk.lineLawful ∧ t.desk.pagesBounded ∧
      t.feed.lawful ∧ t.placesSound ∧ t.intakeSound := by
  have hfresh : ∀ st ∈ (State.powered clock straps attn busy).desk.stations, st = Station.fresh :=
    fun st hst => List.eq_of_mem_replicate hst
  refine ⟨State.referencesAgree_empty rfl rfl rfl fun st hst => by rw [hfresh st hst]; rfl,
    ⟨fun _ he => (nomatch he), trivial⟩, ⟨Tape.cleared_lawful, Tape.cleared_lawful⟩,
    Board.restarted_lawful List.Pairwise.nil _, Params.defaults_lawful.1, Params.defaults_lawful.2, Counters.zero_counted,
    fun st hst => ?_, ⟨rfl, fun st hst => ?_⟩, ⟨fun st hst => ?_, rfl, trivial⟩,
    ⟨fun _ _ ht => (nomatch ht), fun _ _ ht => (nomatch ht), fun _ hp => (nomatch hp)⟩, Repeater.cleared_lawful clock,
    ⟨rfl, Nat.zero_le _⟩, ⟨Nat.zero_le _, fun _ he => (nomatch he), fun _ hm => (nomatch hm), (nomatch ·)⟩⟩
  · rw [hfresh st hst]
    exact Station.clearedRestart_counted Station.fresh
  · rw [hfresh st hst]
    exact Station.fresh_lawful.1
  · rw [hfresh st hst]
    exact Station.fresh_lawful.2

theorem Keeps.powerOn {s : State} (straps : BitVec 6) :
    Keeps s { State.powered s.clock straps s.desk.attn s.desk.busy with pending := s.pending } := by
  obtain ⟨h1, h2, h3, h4, h5, h6, h7, h8, h9, h10, h11, h12, h13, h14⟩ :=
    State.powered_laws s.clock straps s.desk.attn s.desk.busy
  have hpending := Keeps.ofManager (State.powered s.clock straps s.desk.attn s.desk.busy) s.clock
    (UnitManager.powered straps) s.pending
  have hlists : (State.powered s.clock straps s.desk.attn s.desk.busy).desk.listsShort := fun st hst => (h9.2 st hst).1.1
  refine Keeps.trans ?_ hpending
  exact ⟨fun _ => h1, fun _ => h2, fun _ => h3, fun _ => h4, fun _ => h5, fun _ => h6, fun _ => h7, fun _ => h8,
    fun _ => hlists, fun _ _ => ⟨h9, h10⟩, fun _ _ _ => h11, fun _ _ _ => h12, fun _ => h13, fun _ => h14⟩

end Sys2Proof.Machine
end


section
/-! PROOF. Each rule of the unit manager's table, case by case: the state it makes, the reply it places, and that it keeps the
laws (Table 9-1). -/

namespace Sys2Proof.Machine

section
variable {s : State}

/-! ### The unit manager's own commands (R180, R182 to R184, R186, R188) -/

/-- A rule that refuses whatever the state is (R180). -/
theorem Answers.refused {deal : Route → State → State} {echo : Nat} {status : Status}
    (hb : deal .broadcast s = s.refuse .broadcast echo status)
    (hp : deal .place s.reservePlace = s.reservePlace.refuse .place echo status) : Answers deal s echo status .empty s :=
  ⟨hb, hp.trans (State.refuse_place s echo status)⟩

theorem answered_unknown (number : Nat) : Answered (dealUnknown number) s s number .badArgument .empty :=
  .refused (.refused rfl rfl)

theorem answered_assign : Answered dealAssign s s 23 .badArgument .empty := .refused (.refused rfl rfl)

theorem answered_ackRunning (h : s.manager.state = .running) : Answered dealAckRestart s s 1 .done (.unitState .running) where
  answers := by
    have hplace : s.reservePlace.manager.state = .running := h
    constructor
    · simp only [dealAckRestart, h, State.answer_broadcast]
    · simp only [dealAckRestart, hplace, State.answer_place]
  keeps := Keeps.refl s
  occupied := le_rfl
  body _ _ := trivial

theorem answered_ackHeld (h : s.manager.state = .held) :
    Answered dealAckRestart s (State.markAssigned { s with manager := { s.manager with state := .running } }) 1 .done
      (.unitState .running) where
  answers := by
    have hplace : s.reservePlace.manager.state = .held := h
    constructor
    · simp only [dealAckRestart, h, State.answer_broadcast]
    · simp only [dealAckRestart, hplace]
      rfl
  keeps := (Keeps.ofManager s s.clock { s.manager with state := .running } s.pending).trans Keeps.markAssigned
  occupied := le_rfl
  body _ _ := trivial

theorem answered_restartKeep : Answered dealRestartKeep s s.restartKeep 2 .done (.restartCause .keep) where
  answers := ⟨rfl, rfl⟩
  keeps := Keeps.restartKeep
  occupied := by
    rw [show s.restartKeep.feed = s.feed.restarted from rfl, Repeater.restarted_occupied]
    exact Nat.zero_le _
  body _ _ := trivial

theorem answered_restartClear : Answered dealRestartClear s s.restartClear 3 .done (.restartCause .clear) where
  answers := ⟨rfl, rfl⟩
  keeps := Keeps.restartClear
  occupied := by
    rw [show s.restartClear.feed = s.feed.restarted from rfl, Repeater.restarted_occupied]
    exact Nat.zero_le _
  body _ _ := trivial

/-- The unit as CLEAR COUNTERS leaves it (R188). -/
def State.countersCleared (s : State) : State :=
  { s with counters := Counters.zero, feed := { s.feed with errorLimit := false }, desk := s.desk.countersCleared }

theorem answered_clearCounters : Answered dealClearCounters s s.countersCleared 22 .done .empty where
  answers := ⟨rfl, rfl⟩
  keeps := by
    have hcounters : Keeps s { s with counters := Counters.zero } := Keeps.ofCounters fun _ => Counters.zero_counted
    have hfeed : Keeps s { s with counters := Counters.zero, feed := { s.feed with errorLimit := false } } :=
      hcounters.trans (Keeps.errorLimit (s := { s with counters := Counters.zero }) false)
    exact hfeed.trans (Keeps.ofDesk (DeskKeeps.ofMap fun _ => StationKeeps.countersCleared))
  occupied := le_rfl
  body _ _ := trivial

/-! ### SET PARAMETER (R186, R187) -/

theorem Params.ranged_setLevel {p : Params} (h : p.ranged) (k : Nat) (l : LevelPair) : (p.setLevel k l).ranged := by
  unfold Params.setLevel
  split <;> exact h

/-- A parameter that is stored is in its range, and the level thresholds in order (R186, R187). -/
theorem Params.store_lawful {p p' : Params} {ident value : Nat} {body : ReplyBody}
    (h : p.store ident value = some (p', body)) : (p.ordered → p'.ordered) ∧ (p.ranged → p'.ranged) ∧ body.rendered := by
  have level {k i : Nat} {l : LevelPair} (hl : p.ordered → p.Fits k l)
      (hstored : p.storeLevel i k l = some (p', body)) :
      (p.ordered → p'.ordered) ∧ (p.ranged → p'.ranged) ∧ body.rendered := by
    obtain ⟨rfl, rfl⟩ := Prod.mk.inj (Option.some.inj hstored)
    exact ⟨fun ho => Params.ordered_setLevel ho (hl ho), fun hr => Params.ranged_setLevel hr k l, trivial⟩
  unfold Params.store at h
  split at h
  case h_7 => exact level (fun ho => (Params.fits_level ho 1).setEnter value) h
  case h_8 => exact level (fun ho => (Params.fits_level ho 2).setEnter value) h
  case h_9 => exact level (fun ho => (Params.fits_level ho 3).setEnter value) h
  case h_10 => exact level (fun ho => (Params.fits_level ho 1).setLeave value) h
  case h_11 => exact level (fun ho => (Params.fits_level ho 2).setLeave value) h
  case h_12 => exact level (fun ho => (Params.fits_level ho 3).setLeave value) h
  case h_21 => cases h
  all_goals
    obtain ⟨rfl, rfl⟩ := Prod.mk.inj (Option.some.inj h)
    refine ⟨id, fun hr => ?_, trivial⟩
    simp only [Params.ranged, clamp] at hr ⊢
    omega

theorem answered_parameterRefused {ident value : Nat} (h : s.params.store ident value = none) :
    Answered (dealSetParameter ident value) s s 13 .badArgument .empty := by
  have hplace : s.reservePlace.params.store ident value = none := h
  exact .refused (.refused (by simp only [dealSetParameter, h]) (by simp only [dealSetParameter, hplace]))

/-- The state with a parameter stored, and the error limit tested at the setting of the check-failure limit (R168, R186). -/
def State.parameterStored (s : State) (p : Params) (ident : Nat) : State := State.limitTested { s with params := p } ident

theorem answered_parameterStored {ident value : Nat} {p : Params} {body : ReplyBody}
    (h : s.params.store ident value = some (p, body)) :
    Answered (dealSetParameter ident value) s (s.parameterStored p ident) 13 .done body where
  answers := by
    have hplace : s.reservePlace.params.store ident value = some (p, body) := h
    constructor
    · simp only [dealSetParameter, h]
      rfl
    · simp only [dealSetParameter, hplace, State.parameterStored, State.limitTested]
      split <;> rfl
  keeps := by
    obtain ⟨hordered, hranged, -⟩ := Params.store_lawful h
    refine (Keeps.ofParams hordered hranged).trans ?_
    unfold State.parameterStored State.limitTested
    split
    · exact Keeps.errorLimit _
    · exact Keeps.refl _
  occupied := by
    unfold State.parameterStored State.limitTested
    split <;> exact le_rfl
  body _ _ := (Params.store_lawful h).2.2

/-! ### Cells and the board (R98, R111, R112, R114) -/

theorem answered_cellRefused {panel cell : Nat} {record : Option Nat} {status : Status}
    (h : s.setCellRefusal panel cell record = some status) : Answered (dealSetCell panel cell record) s s 8 status .empty := by
  have hplace : s.reservePlace.setCellRefusal panel cell record = some status := h
  exact .refused (.refused (by simp only [dealSetCell, h]) (by simp only [dealSetCell, hplace]))

/-- SET CELL acted on names a cell and a record with room for it (R98). -/
theorem State.setCellRefusal_none {panel cell : Nat} {record : Option Nat} (h : s.setCellRefusal panel cell record = none) :
    panel ≤ 3 ∧ cell ≤ 63 ∧ ∀ r, record = some r →
      ∃ q, s.record? r = some q ∧ (q.cells.length < 2 ∨ cellNumber panel cell ∈ q.cells) := by
  unfold State.setCellRefusal at h
  split at h
  · cases h
  · next hrange =>
    refine ⟨by omega, by omega, fun r hr => ?_⟩
    subst hr
    simp only at h
    split at h
    · cases h
    · split at h
      · cases h
      · next q hq =>
        split at h
        · cases h
        · next hroom =>
          refine ⟨q, hq, ?_⟩
          by_cases hlen : q.cells.length < 2
          · exact Or.inl hlen
          · exact Or.inr (by_contra fun hout => hroom ⟨by omega, hout⟩)

/-- SET CELL's effect reads nothing of the reply queue. -/
theorem State.reservePlace_assignCell (s : State) (cell : Nat) (record : Option Nat) :
    s.reservePlace.assignCell cell record = (s.assignCell cell record).reservePlace := by
  have hdetach : s.reservePlace.detachCell cell = (s.detachCell cell).reservePlace := by
    have hrecord (r : Nat) : s.reservePlace.record? r = s.record? r := rfl
    simp only [State.detachCell, State.reservePlace_board, hrecord]
    split
    · rfl
    · split <;> rfl
  have hrecord (r : Nat) : (s.detachCell cell).reservePlace.record? r = (s.detachCell cell).record? r := rfl
  simp only [State.assignCell, hdetach, hrecord, State.reservePlace_board]
  split
  · rfl
  · split
    · rfl
    · split <;> rfl

theorem answered_cellAssigned {panel cell : Nat} {record : Option Nat} (h : s.setCellRefusal panel cell record = none) :
    let t := (s.assignCell (cellNumber panel cell) record).markCells [cellNumber panel cell]
    Answered (dealSetCell panel cell record) s t 8 .done
      (.cell panel cell (tableGet t.board.cellMap (cellNumber panel cell))) := by
  obtain ⟨hpanel, hcell, hrecord⟩ := State.setCellRefusal_none h
  refine ⟨⟨?_, ?_⟩, ?_, ?_, fun _ _ => trivial⟩
  · simp only [dealSetCell, h, State.answer_broadcast]
  · have hplace : s.reservePlace.setCellRefusal panel cell record = none := h
    simp only [dealSetCell, hplace, State.reservePlace_assignCell]
    rfl
  · exact (Keeps.assignCell (by simp only [cellNumber]; omega) hrecord).trans (Keeps.mark _)
  · rw [State.markCells_feed, State.assignCell_frame]

theorem answered_pauseBoard : Answered dealPauseBoard s { s with board := { s.board with pause := s.board.pauseAsked } } 14 .done
    (.pauseState s.board.pauseAsked) where
  answers := ⟨dealPauseBoard_eq .broadcast s, (dealPauseBoard_eq .place s.reservePlace).trans
    (State.answer_place { s with board := { s.board with pause := s.board.pauseAsked } } 14 .done _)⟩
  keeps := by
    have hpause : s.board.pauseAsked =
        if s.board.pause = .running then (if s.board.block.isSome then .pausing else .paused) else s.board.pause := by
      cases hstate : s.board.pause <;> cases hblock : s.board.block <;> simp [Board.pauseAsked, hstate, hblock]
    rw [hpause]
    exact Keeps.ofBoard (fun h => Board.pause_lawful h) rfl
  occupied := le_rfl
  body _ _ := trivial

/-- The board RUNNING again, a block assembled at once when it was not (R114). -/
def State.boardContinued (s : State) : State :=
  if s.board.pause = .running then { s with board := { s.board with pause := .running } }
  else State.assemble { s with board := { s.board with pause := .running } }

/-- An assembly reads nothing of the reply queue. -/
theorem State.reservePlace_assemble (s : State) : s.reservePlace.assemble = s.assemble.reservePlace := by
  unfold State.assemble
  by_cases hready : s.board.pause = .running ∧ s.board.block = none
  · have hplace : s.reservePlace.board.pause = .running ∧ s.reservePlace.board.block = none := hready
    rw [if_pos hready, if_pos hplace]
    simp only [State.reservePlace_board]
    cases s.board.dirty.dropWhile s.board.passedOver <;> rfl
  · have hplace : ¬ (s.reservePlace.board.pause = .running ∧ s.reservePlace.board.block = none) := hready
    rw [if_neg hready, if_neg hplace]

theorem answered_continueBoard : Answered dealContinueBoard s s.boardContinued 15 .done (.pauseState .running) where
  answers := by
    have hassemble := State.reservePlace_assemble { s with board := { s.board with pause := .running } }
    constructor
    · rfl
    · unfold dealContinueBoard State.boardContinued
      by_cases hrunning : s.board.pause = .running
      · have hplace : s.reservePlace.board.pause = .running := hrunning
        simp only [if_pos hrunning, if_pos hplace]
        rfl
      · have hplace : ¬ s.reservePlace.board.pause = .running := hrunning
        simp only [if_neg hrunning, if_neg hplace]
        exact congrArg (State.answer · .place 15 .done (.pauseState .running)) hassemble
  keeps := by
    have hrunning : Keeps s { s with board := { s.board with pause := .running } } :=
      Keeps.ofBoard (fun h => Board.running_lawful h) rfl
    unfold State.boardContinued
    split
    · exact hrunning
    · exact hrunning.trans Keeps.assemble
  occupied := by
    unfold State.boardContinued
    split
    · exact le_rfl
    · rw [State.assemble_frame]
  body _ _ := trivial

theorem answered_panelRefused {panel : Nat} (h : 3 < panel) :
    Answered (dealRestorePanel panel) s s 16 .badArgument .empty :=
  .refused (.refused (by simp only [dealRestorePanel, if_pos h]) (by simp only [dealRestorePanel, if_pos h]))

/-- A panel IN with count 0, its assigned cells marked (R111). -/
def Board.restored (b : Board) (panel : Nat) : Board :=
  let fresh := b.modifyPanel panel fun _ => Panel.fresh
  fresh.mark (fresh.assignedOf panel)

theorem answered_panelRestored {panel : Nat} (h : ¬ 3 < panel) :
    Answered (dealRestorePanel panel) s { s with board := s.board.restored panel } 16 .done (.panelState .inService) where
  answers := by
    constructor
    · simp only [dealRestorePanel, if_neg h]
      rfl
    · simp only [dealRestorePanel, if_neg h]
      rfl
  keeps := Keeps.ofBoard (fun h => Board.mark_lawful (Board.restored_lawful h panel) _) rfl
  occupied := le_rfl
  body _ _ := trivial

/-! ### SET MONITOR (R70) -/

theorem answered_monitorRange {r : Nat} {m : MonSettings} (h : 512 ≤ r) :
    Answered (dealSetMonitor r m) s s 9 .badArgument .empty :=
  .refused (.refused (by simp only [dealSetMonitor, if_pos h]) (by simp only [dealSetMonitor, if_pos h]))

theorem answered_monitorUnoccupied {r : Nat} {m : MonSettings} (h : ¬ 512 ≤ r) (hr : s.record? r = none) :
    Answered (dealSetMonitor r m) s s 9 .notFound .empty := by
  have hplace : s.reservePlace.record? r = none := hr
  exact .refused (.refused (by simp only [dealSetMonitor, if_neg h, hr]) (by simp only [dealSetMonitor, if_neg h, hplace]))

/-- A record with monitor settings stored: CALM, its baseline kept (R70). -/
def QuoteRecord.monitored (q : QuoteRecord) (m : MonSettings) : QuoteRecord :=
  { q with monitor := { q.monitor.calmed with settings := clampSettings m } }

/-- SET MONITOR's effect (R70). -/
def State.monitorSet (s : State) (r : Nat) (q : QuoteRecord) (m : MonSettings) : State :=
  { s.setRecord r (q.monitored m) with
    board := if q.monitor.moving then s.board.mark q.cells else s.board
    desk := if q.monitor.state = .calm then s.desk else s.desk.touch r noAlert }

theorem answered_monitorStored {r : Nat} {m : MonSettings} {q : QuoteRecord} (h : ¬ 512 ≤ r) (hq : s.record? r = some q) :
    Answered (dealSetMonitor r m) s (s.monitorSet r q m) 9 .done (.settings (clampSettings m)) where
  answers := by
    have hplace : s.reservePlace.record? r = some q := hq
    constructor
    · simp only [dealSetMonitor, if_neg h, hq, State.monitorSet]
      split <;> split <;> rfl
    · simp only [dealSetMonitor, if_neg h, hplace, State.monitorSet]
      split <;> split <;> rfl
  keeps := by
    have hset : Keeps s (s.setRecord r (q.monitored m)) := Keeps.ofRecord hq rfl rfl fun hl =>
      ⟨hl.1, settingsRanged_clampSettings m, fun _ => rfl, fun hh => by simp [QuoteRecord.monitored, Monitor.calmed] at hh,
        rfl, rfl, fun _ => rfl⟩
    have hmarked : Keeps s { s.setRecord r (q.monitored m) with
        board := if q.monitor.moving then s.board.mark q.cells else s.board } := by
      split
      · exact hset.trans (Keeps.mark q.cells)
      · exact hset
    unfold State.monitorSet
    by_cases hcalm : q.monitor.state = .calm
    · simp only [if_pos hcalm]
      exact hmarked
    · simp only [if_neg hcalm]
      exact hmarked.trans (Keeps.touch (s := { s.setRecord r (q.monitored m) with
        board := if q.monitor.moving then s.board.mark q.cells else s.board }) r entryEvent_noAlert)
  occupied := le_rfl
  body _ _ := trivial

/-! ### Watch lists and modes (R151, R152) -/

theorem answered_watchRefused {station : Nat} {entries : List WatchArgs} (h : watchArgsSound station entries = false) :
    Answered (dealLoadWatch station entries) s s 10 .badArgument .empty :=
  .refused (.refused (by simp only [dealLoadWatch, if_pos h]) (by simp only [dealLoadWatch, if_pos h]))

theorem answered_watchUnoccupied {station : Nat} {entries : List WatchArgs} (h : watchArgsSound station entries = true)
    (hnone : entries.any (fun w => (s.record? w.record).isNone) = true) :
    Answered (dealLoadWatch station entries) s s 10 .notFound .empty := by
  have hplace : entries.any (fun w => (s.reservePlace.record? w.record).isNone) = true := hnone
  exact .refused (.refused (by simp [dealLoadWatch, h, hnone]) (by simp [dealLoadWatch, h, hplace]))

theorem answered_watchLoaded {station : Nat} {entries : List WatchArgs} (h : watchArgsSound station entries = true)
    (hall : entries.any (fun w => (s.record? w.record).isNone) = false) :
    Answered (dealLoadWatch station entries) s { s with desk := s.desk.loadWatch station entries } 10 .done
      (.watchLoaded station entries.length) where
  answers := by
    have hplace : entries.any (fun w => (s.reservePlace.record? w.record).isNone) = false := hall
    have hsound : ¬ watchArgsSound station entries = false := by simp [h]
    constructor
    · rw [dealLoadWatch, if_neg hsound, if_neg (by simp [hall]), State.answer_broadcast]
    · rw [dealLoadWatch, if_neg hsound, if_neg (by simp [hplace])]
      rfl
  keeps := by
    simp only [watchArgsSound, Bool.and_eq_true, decide_eq_true_eq] at h
    obtain ⟨⟨⟨-, hlen⟩, -⟩, hnodup⟩ := h
    refine Keeps.loadWatch station hlen hnodup fun w hw => ?_
    have hsome := List.any_eq_false.1 hall w hw
    simpa using Option.isSome_iff_ne_none.2 fun hn => hsome (by rw [hn]; rfl)
  occupied := le_rfl
  body _ _ := trivial

theorem answered_clearRefused {station : Nat} (h : 15 < station) :
    Answered (dealClearWatch station) s s 11 .badArgument .empty :=
  .refused (.refused (by simp only [dealClearWatch, if_pos h]) (by simp only [dealClearWatch, if_pos h]))

theorem answered_watchCleared {station : Nat} (h : ¬ 15 < station) :
    Answered (dealClearWatch station) s { s with desk := s.desk.loadWatch station [] } 11 .done (.station station) where
  answers := by
    constructor
    · rw [dealClearWatch, if_neg h, State.answer_broadcast]
    · rw [dealClearWatch, if_neg h]
      rfl
  keeps := Keeps.loadWatch station (Nat.zero_le _) List.nodup_nil fun w hw => (nomatch hw)
  occupied := le_rfl
  body _ _ := trivial

theorem answered_modeRefused {station mode interval : Nat} (h : modeOf mode = none ∨ 15 < station) :
    Answered (dealSetStation station mode interval) s s 12 .badArgument .empty := by
  have hdeal (route : Route) (t : State) : dealSetStation station mode interval route t = t.refuse route 12 .badArgument := by
    unfold dealSetStation
    split
    · rfl
    · next hm => rw [if_pos (h.resolve_left fun hn => nomatch hm.symm.trans hn)]
  exact .refused (.refused (hdeal _ _) (hdeal _ _))

theorem answered_modeStored {station mode interval : Nat} {m : StationMode} (hm : modeOf mode = some m)
    (h : ¬ 15 < station) :
    Answered (dealSetStation station mode interval) s
      { s with desk := s.desk.modifyStation station (Station.setMode s.clock m interval) } 12 .done
      (.modeStored m (clamp 1 60 interval)) where
  answers := by
    constructor
    · simp only [dealSetStation, hm, if_neg h, State.answer_broadcast]
    · simp only [dealSetStation, hm, if_neg h]
      rfl
  keeps := Keeps.modifyStation (n := station) fun st _ => StationKeeps.setMode s.clock m interval
  occupied := le_rfl
  body _ _ := trivial

/-! ### The queries (R181) -/

/-- A query's part, answered from the state beside the place reserved for it. -/
theorem answered_part {deal : Route → State → State} {echo : Nat} {body : ReplyBody}
    (hb : deal .broadcast s = s) (hp : deal .place s.reservePlace = s.reservePlace.answer .place echo .done body)
    (hbody : s.recordsLawful → s.board.lawful → body.rendered) : Answered deal s s echo .done body :=
  ⟨⟨hb, hp.trans (State.answer_place s echo .done body)⟩, Keeps.refl s, le_rfl, hbody⟩

theorem State.answerPart_broadcast (s : State) (echo : Nat) (part : Option ReplyBody) : s.answerPart .broadcast echo part = s := by
  cases part <;> rfl

/-- A query that names a part, or none, of what it asks for, changes nothing but the reply queue (R181). -/
theorem answered_query {deal : Route → State → State} {echo : Nat} {part : Option ReplyBody}
    (hb : deal .broadcast s = s) (hp : deal .place s.reservePlace = s.reservePlace.answerPart .place echo part)
    (hbody : s.recordsLawful → s.board.lawful → ∀ body, part = some body → body.rendered) :
    ∃ status body, Answered deal s s echo status body := by
  cases part with
  | none => exact ⟨_, _, .refused ⟨hb, hp.trans (State.refuse_place s echo .badArgument)⟩⟩
  | some body => exact ⟨_, _, answered_part hb hp fun hr hl => hbody hr hl body rfl⟩

theorem State.statusPart_rendered {t : State} {part : Nat} {body : ReplyBody} (h : t.statusPart part = some body)
    (hb : t.board.lawful) : body.rendered := by
  unfold State.statusPart at h
  split at h <;> cases h
  case h_3 => exact hb.2.2.1
  all_goals trivial

theorem State.recordPart_rendered {t : State} {q : QuoteRecord} {part : Nat} {body : ReplyBody}
    (h : t.recordPart q part = some body) (hq : q.lawful) : body.rendered := by
  unfold State.recordPart at h
  split at h <;> cases h
  case h_3 => exact hq.1.1
  all_goals trivial

theorem State.watchPart_rendered {t : State} {st : Station} {part : Nat} {body : ReplyBody}
    (h : t.watchPart st part = some body) : body.rendered := by
  have hentries (start : Nat) : (t.entriesFrom st start).rendered := by
    simp only [State.entriesFrom, ReplyBody.rendered, List.length_map]
    exact List.length_take_le _ _
  have halerts (start : Nat) : (alertsFrom st start).rendered := List.length_take_le _ _
  unfold State.watchPart at h
  split at h <;> cases h
  · exact hentries 0
  · exact hentries 4
  · exact hentries 8
  · exact halerts 0
  · exact halerts 6

theorem answered_queryStatus (part : Nat) : ∃ status body, Answered (dealQueryStatus part) s s 17 status body :=
  answered_query (State.answerPart_broadcast s 17 _) rfl fun _ hb _ h => State.statusPart_rendered h hb

theorem answered_queryRecord (part record : Nat) : ∃ status body, Answered (dealQueryRecord part record) s s 18 status body := by
  by_cases hrange : 3 < part ∨ 512 ≤ record
  · exact ⟨_, _, .refused (.refused (by rw [dealQueryRecord, if_pos hrange]) (by rw [dealQueryRecord, if_pos hrange]))⟩
  · cases hq : s.record? record with
    | none =>
      have hplace : s.reservePlace.record? record = none := hq
      exact ⟨_, _, .refused (.refused (by rw [dealQueryRecord, if_neg hrange, hq])
        (by rw [dealQueryRecord, if_neg hrange, hplace]))⟩
    | some q =>
      have hplace : s.reservePlace.record? record = some q := hq
      refine answered_query (part := s.reservePlace.recordPart q part) ?_ ?_ fun hr _ body h =>
        State.recordPart_rendered h (hr.1 _ (mem_of_tableGet hq))
      · rw [dealQueryRecord, if_neg hrange, hq]
        exact State.answerPart_broadcast s 18 _
      · rw [dealQueryRecord, if_neg hrange, hplace]

theorem answered_queryStation (part station : Nat) :
    ∃ status body, Answered (dealQueryStation part station) s s 19 status body := by
  cases hst : s.desk.stations[station]? with
  | none =>
    have hplace : s.reservePlace.desk.stations[station]? = none := hst
    exact ⟨.badArgument, .empty, .refused (.refused (by simp only [dealQueryStation, hst]) (by simp only [dealQueryStation, hplace]))⟩
  | some st =>
    have hplace : s.reservePlace.desk.stations[station]? = some st := hst
    refine answered_query (part := s.reservePlace.stationPart station st part) ?_ ?_ fun _ _ body h => ?_
    · simp only [dealQueryStation, hst]
      exact State.answerPart_broadcast s 19 _
    · simp only [dealQueryStation, hplace]
    · unfold State.stationPart at h
      split at h <;> cases h <;> trivial

theorem answered_queryWatch (part station : Nat) : ∃ status body, Answered (dealQueryWatch part station) s s 20 status body := by
  cases hst : s.desk.stations[station]? with
  | none =>
    have hplace : s.reservePlace.desk.stations[station]? = none := hst
    exact ⟨.badArgument, .empty, .refused (.refused (by simp only [dealQueryWatch, hst]) (by simp only [dealQueryWatch, hplace]))⟩
  | some st =>
    have hplace : s.reservePlace.desk.stations[station]? = some st := hst
    refine answered_query (part := s.reservePlace.watchPart st part) ?_ ?_ fun _ _ body h => State.watchPart_rendered h
    · simp only [dealQueryWatch, hst]
      exact State.answerPart_broadcast s 20 _
    · simp only [dealQueryWatch, hplace]

theorem answered_queryCounters (part : Nat) : ∃ status body, Answered (dealQueryCounters part) s s 21 status body := by
  refine answered_query (part := if part = 0 then some (.counters s.counters) else none) ?_ rfl fun _ _ body h => ?_
  · exact State.answerPart_broadcast s 21 _
  · split at h <;> cases h
    trivial

/-! ### The table (Table 9-1) -/

/-- Every command but the four directory commands is answered at once, with a state that keeps the laws (R167, R180). -/
theorem answered_command {c : Command} (h : isDirectoryCommand c = false) :
    ∃ u echo status body, Answered (dealCommand c) s u echo status body := by
  cases c with
  | loadSymbol | addAlias | dropAlias | dropSymbol => cases h
  | ackRestart =>
    cases hstate : s.manager.state with
    | running => exact ⟨_, _, _, _, answered_ackRunning hstate⟩
    | held => exact ⟨_, _, _, _, answered_ackHeld hstate⟩
  | restartKeep => exact ⟨_, _, _, _, answered_restartKeep⟩
  | restartClear => exact ⟨_, _, _, _, answered_restartClear⟩
  | setCell panel cell record =>
    cases hrefusal : s.setCellRefusal panel cell record with
    | some status => exact ⟨_, _, _, _, answered_cellRefused hrefusal⟩
    | none => exact ⟨_, _, _, _, answered_cellAssigned hrefusal⟩
  | setMonitor r m =>
    by_cases hrange : 512 ≤ r
    · exact ⟨_, _, _, _, answered_monitorRange hrange⟩
    · cases hr : s.record? r with
      | none => exact ⟨_, _, _, _, answered_monitorUnoccupied hrange hr⟩
      | some q => exact ⟨_, _, _, _, answered_monitorStored hrange hr⟩
  | loadWatch station entries =>
    cases hsound : watchArgsSound station entries with
    | false => exact ⟨_, _, _, _, answered_watchRefused hsound⟩
    | true =>
      cases hall : entries.any (fun w => (s.record? w.record).isNone) with
      | true => exact ⟨_, _, _, _, answered_watchUnoccupied hsound hall⟩
      | false => exact ⟨_, _, _, _, answered_watchLoaded hsound hall⟩
  | clearWatch station =>
    by_cases hrange : 15 < station
    · exact ⟨_, _, _, _, answered_clearRefused hrange⟩
    · exact ⟨_, _, _, _, answered_watchCleared hrange⟩
  | setStation station mode interval =>
    by_cases hrefused : modeOf mode = none ∨ 15 < station
    · exact ⟨_, _, _, _, answered_modeRefused hrefused⟩
    · obtain ⟨hm, hrange⟩ := not_or.1 hrefused
      obtain ⟨m, hm⟩ := Option.ne_none_iff_exists'.1 hm
      exact ⟨_, _, _, _, answered_modeStored hm hrange⟩
  | setParameter ident value =>
    cases hstore : s.params.store ident value with
    | none => exact ⟨_, _, _, _, answered_parameterRefused hstore⟩
    | some stored => exact ⟨_, _, _, _, answered_parameterStored hstore⟩
  | pauseBoard => exact ⟨_, _, _, _, answered_pauseBoard⟩
  | continueBoard => exact ⟨_, _, _, _, answered_continueBoard⟩
  | restorePanel panel =>
    by_cases hrange : 3 < panel
    · exact ⟨_, _, _, _, answered_panelRefused hrange⟩
    · exact ⟨_, _, _, _, answered_panelRestored hrange⟩
  | queryStatus part => exact ⟨s, 17, answered_queryStatus part⟩
  | queryRecord part record => exact ⟨s, 18, answered_queryRecord part record⟩
  | queryStation part station => exact ⟨s, 19, answered_queryStation part station⟩
  | queryWatch part station => exact ⟨s, 20, answered_queryWatch part station⟩
  | queryCounters part => exact ⟨s, 21, answered_queryCounters part⟩
  | clearCounters => exact ⟨_, _, _, _, answered_clearCounters⟩
  | assign candidate => exact ⟨_, _, _, _, answered_assign⟩

end

end Sys2Proof.Machine
end


section
/-! PROOF. Every command keeps the laws: directory commands and whole messages, the classifier and the walk, tapes, boards and
the desk line (O56 to O60). -/

namespace Sys2Proof.Machine

section
variable {s : State}

/-! ### Directory commands (R4, R5, R10, R13 to R15) -/

/-- A check of a directory command passes only on what then stands, with clamped settings (R10, R13 to R15). -/
def State.checked (s : State) (outcome : Status ⊕ DirWork) : Prop :=
  ∀ work, outcome = .inr work →
    State.operationStands.holds s work ∧ ∀ a, work = .load a → settingsRanged a.settings

/-- A code whose lookup is not found has none (R3). -/
theorem Option.eq_none_of_isSome {α : Type} {o : Option α} (h : ¬ o.isSome = true) : o = none := by
  simpa using h

theorem State.checkLoad_checked (a : LoadArgs) : s.checked (s.checkLoad a) := by
  intro work h
  unfold State.checkLoad at h
  split at h
  · cases h
  · next hsound =>
    split at h
    · cases h
    · next hroom =>
      split at h
      · cases h
      · next hfree =>
        obtain ⟨hrecord, hcode⟩ := not_or.1 hfree
        cases h
        refine ⟨⟨?_, by omega, Option.eq_none_of_isSome hrecord, Option.eq_none_of_isSome hcode⟩, fun b hb => ?_⟩
        · rwa [Bool.not_eq_false] at hsound
        · cases hb
          exact settingsRanged_clampSettings a.settings

theorem State.checkAddAlias_checked (code : Code) (record : Nat) : s.checked (s.checkAddAlias code record) := by
  intro work h
  unfold State.checkAddAlias at h
  split at h
  · cases h
  · next hsound =>
    obtain ⟨hcode, hrange⟩ := not_or.1 hsound
    split at h
    · cases h
    · next hoccupied =>
      split at h
      · cases h
      · next hroom =>
        split at h
        · cases h
        · next hnew =>
          cases h
          refine ⟨⟨by simpa using hcode, by omega, ?_, by omega, Option.eq_none_of_isSome hnew⟩, fun b hb => nomatch hb⟩
          rw [← Option.not_isNone]
          simpa only [Bool.not_eq_true', Bool.not_eq_true] using hoccupied

theorem State.checkDropAlias_checked (code : Code) : s.checked (s.checkDropAlias code) := by
  intro work h
  unfold State.checkDropAlias at h
  split at h
  · cases h
  · split at h
    · cases h
    · next e he =>
      split at h
      · next hkind =>
        cases h
        exact ⟨⟨e, he, hkind⟩, fun b hb => nomatch hb⟩
      · cases h

theorem State.checkDropSymbol_checked (code : Code) : s.checked (s.checkDropSymbol code) := by
  intro work h
  unfold State.checkDropSymbol at h
  split at h
  · cases h
  · split at h
    · cases h
    · next e he =>
      split at h
      · next hkind =>
        cases h
        exact ⟨⟨e, he, hkind, rfl⟩, fun b hb => nomatch hb⟩
      · cases h

theorem Directory.isIdle_iff (d : Directory) : d.isIdle = true ↔ d.operation = .idle := by
  unfold Directory.isIdle
  split <;> simp_all

/-- An operation is held, or a walk is in flight: a directory command is answered BUSY (R4). -/
def State.operationBusy (s : State) : Prop := s.directory.isIdle = false ∨ s.store.walk.isSome = true

theorem State.examineOperation_busy (h : s.operationBusy) (echo : Nat) (route : Route) (outcome : Status ⊕ DirWork) :
    s.examineOperation echo route outcome = s.refuse route echo .busy := if_pos h

theorem State.examineOperation_refused (h : ¬ s.operationBusy) (echo : Nat) (route : Route) (status : Status) :
    s.examineOperation echo route (.inl status) = s.refuse route echo status := if_neg h

theorem State.examineOperation_accepted (h : ¬ s.operationBusy) (echo : Nat) (route : Route) (work : DirWork) :
    s.examineOperation echo route (.inr work) = s.acceptOperation work route := if_neg h

/-- With nothing held and no walk in flight the directory is IDLE. -/
theorem State.not_operationBusy_iff : ¬ s.operationBusy ↔ s.directory.operation = .idle ∧ s.store.walk = none := by
  rw [State.operationBusy, not_or, Bool.not_eq_false, Directory.isIdle_iff]
  simp

/-- A directory command passed by its address: refused, or accepted on what its checks found (R4, R5). -/
theorem Keeps.examined {echo : Nat} {check : State → Status ⊕ DirWork} {deal : Route → State → State}
    (hdeal : ∀ route t, deal route t = t.examineOperation echo route (check t))
    (hplace : check s.reservePlace = check s) (hchecked : s.checked (check s)) (addr : Nat) :
    Keeps s (s.passCommand addr deal) := by
  by_cases hbusy : s.operationBusy
  · have hbusyPlace : s.reservePlace.operationBusy := hbusy
    exact Keeps.passed (Answered.refused (.refused (status := .busy)
      ((hdeal _ _).trans (State.examineOperation_busy hbusy _ _ _))
      ((hdeal _ _).trans (State.examineOperation_busy hbusyPlace _ _ _)))) addr
  · have hbusyPlace : ¬ s.reservePlace.operationBusy := hbusy
    cases hout : check s with
    | inl status =>
      have hrefused (route : Route) {t : State} (ht : ¬ t.operationBusy) (hc : check t = .inl status) :
          deal route t = t.refuse route echo status := by
        rw [hdeal, hc, State.examineOperation_refused ht]
      exact Keeps.passed (Answered.refused (.refused (hrefused _ hbusy hout)
        (hrefused _ hbusyPlace (hplace.trans hout)))) addr
    | inr work =>
      obtain ⟨hholds, hclamped⟩ := hchecked work hout
      obtain ⟨hop, hnone⟩ := State.not_operationBusy_iff.1 hbusy
      rcases State.passCommand_cases s addr deal with ⟨-, hp⟩ | ⟨htakes, hp⟩ | ⟨-, -, hp⟩ | ⟨-, -, hp⟩ <;> rw [hp]
      · rw [hdeal, hout, State.examineOperation_accepted hbusy, State.acceptOperation_eq work .broadcast hnone]
        exact Keeps.accepted (held := false) hop hholds hclamped (nomatch ·)
      · rw [hdeal, hplace, hout, State.examineOperation_accepted hbusyPlace,
          State.acceptOperation_eq (s := s.reservePlace) work .place hnone]
        exact Keeps.accepted (held := true) hop hholds hclamped fun _ => htakes.2.2.2
      · exact Keeps.countUntaken
      · exact Keeps.refl s

/-- Every command of Table 9-1 passed by its address keeps the laws. -/
theorem Keeps.passCommand (addr : Nat) (c : Command) : Keeps s (s.passCommand addr (dealCommand c)) := by
  by_cases hdirectory : isDirectoryCommand c = false
  · obtain ⟨u, echo, status, body, h⟩ := answered_command (s := s) hdirectory
    exact Keeps.passed h addr
  · cases c with
    | loadSymbol a => exact Keeps.examined (check := fun t => t.checkLoad a) (fun _ _ => rfl) rfl (State.checkLoad_checked a) addr
    | addAlias code record =>
      exact Keeps.examined (check := fun t => t.checkAddAlias code record) (fun _ _ => rfl) rfl
        (State.checkAddAlias_checked code record) addr
    | dropAlias code =>
      exact Keeps.examined (check := fun t => t.checkDropAlias code) (fun _ _ => rfl) rfl (State.checkDropAlias_checked code) addr
    | dropSymbol code =>
      exact Keeps.examined (check := fun t => t.checkDropSymbol code) (fun _ _ => rfl) rfl (State.checkDropSymbol_checked code)
        addr
    | _ => exact absurd rfl hdirectory

/-! ### Whole messages (R163, R167) -/

theorem Keeps.passMessage (addr : Nat) (bytes : List Byte) : Keeps s (s.passCommand addr (dealMessage bytes)) := by
  cases hc : commandOf bytes with
  | none =>
    have hdeal : dealMessage bytes = dealUnknown (commandNumber bytes) := by
      funext route t
      simp only [dealMessage, hc]
    rw [hdeal]
    exact Keeps.passed (answered_unknown _) addr
  | some command =>
    have hdeal : dealMessage bytes = dealCommand command := by
      funext route t
      simp only [dealMessage, hc]
    rw [hdeal]
    exact Keeps.passCommand addr command

/-- A message examined keeps the laws where the state does, with the message forwarded and without (R167). -/
theorem Keeps.examine {u : State} {bytes : List Byte} (hplain : Keeps s u) (hforwarded : Keeps s (u.forwardMessage bytes)) :
    Keeps s (u.examine bytes) := by
  unfold State.examine
  simp only
  split
  · exact hforwarded.trans (Keeps.handToIntake bytes)
  · split
    · unfold State.examineCommand
      simp only
      split
      · split
        · exact hforwarded.trans (Keeps.passAssign _)
        · exact hforwarded
      · split
        · exact hplain.trans (Keeps.passMessage _ bytes)
        · exact hforwarded.trans (Keeps.passMessage _ bytes)
    · split
      · exact hforwarded
      · exact hforwarded.trans Keeps.countMalformed

theorem Keeps.receiveWhole {u : State} {bytes : List Byte} (hplain : Keeps s u)
    (hforwarded : Keeps s (u.forwardMessage bytes)) : Keeps s (u.receiveWhole bytes) := by
  unfold State.receiveWhole
  split
  · have hzero : Keeps s (State.forwardMessage { u with feed := { u.feed with faultRun := 0 } } bytes) :=
      hforwarded.trans (Keeps.faultRun_zero (s := u.forwardMessage bytes))
    unfold State.receiveLocked
    simp only
    split
    · exact Keeps.examine (hplain.trans Keeps.faultRun_zero) hzero
    · exact hzero.trans Keeps.countCheckFailure
  · unfold State.receiveSearching
    split
    · split
      · refine Keeps.examine (hplain.trans Keeps.gainLock) ?_
        rw [State.gainLock_forwardMessage]
        exact hforwarded.trans Keeps.gainLock
      · next hrun => exact hforwarded.trans (Keeps.goodRun (s := u.forwardMessage bytes) (by simpa using hrun))
    · exact hforwarded.trans (Keeps.goodRun (s := u.forwardMessage bytes) (Nat.zero_le _))

/-! ### The classifier (R24 to R54, R173, R174) -/

theorem Keeps.countOffGrid (grid price : Nat) : Keeps s (s.countOffGrid grid price) := by
  unfold State.countOffGrid
  split
  · exact Keeps.refl s
  · exact Keeps.ofCounters fun ⟨h1, h2, h3, h4, h5, h6, h7, h8, h9, h10, h11, h12, _, h14⟩ =>
      ⟨h1, h2, h3, h4, h5, h6, h7, h8, h9, h10, h11, h12, bump_le _ _, h14⟩

theorem Keeps.offerPrint (q : QuoteRecord) (p : Print) : Keeps s (s.offerPrint q p) := by
  unfold State.offerPrint
  split
  · exact Keeps.offer _ _ fun _ => rfl
  · exact Keeps.refl s

section
variable {r : Nat} {q : QuoteRecord}

/-- A record changed, and its cells marked. -/
theorem Keeps.recordMarked {q' : QuoteRecord} (h : s.record? r = some q) (hcode : q'.code = q.code)
    (hcells : q'.cells = q.cells) (hlawful : q.lawful → q'.lawful) (cells : List Nat) :
    Keeps s ((s.setRecord r q').markCells cells) :=
  (Keeps.ofRecord h hcode hcells hlawful).trans (Keeps.mark cells)

theorem State.countOffGrid_record? (s : State) (grid price n : Nat) : (s.countOffGrid grid price).record? n = s.record? n := by
  unfold State.countOffGrid
  split <;> rfl

theorem Keeps.applyPrint (h : s.record? r = some q) (p : Print) : Keeps s (s.applyPrint r q p) := by
  have hcounted := (State.countOffGrid_record? s q.grid p.price r).trans h
  unfold State.applyPrint
  simp only
  split
  · have hmarked := Keeps.recordMarked (q' := (q.regularPrint p s.store.floor s.clock s.params.moveHold).1) hcounted rfl rfl
      (fun hl => QuoteRecord.regularPrint_lawful hl p _ _ _) q.cells
    exact (Keeps.countOffGrid q.grid p.price).trans (hmarked.trans
      ((Keeps.touch r (entryEvent_lastChanged _ _ _)).trans (Keeps.offerPrint q p)))
  · have hmarked := Keeps.recordMarked (q' := q.sldPrint p) hcounted rfl rfl
      (fun hl => QuoteRecord.sldPrint_lawful hl p) q.cells
    exact (Keeps.countOffGrid q.grid p.price).trans (hmarked.trans (Keeps.offerPrint q _))

theorem QuoteRecord.cancelFound_named (q : QuoteRecord) (p : Print) :
    (q.cancelFound p).code = q.code ∧ (q.cancelFound p).cells = q.cells := by
  unfold QuoteRecord.cancelFound
  simp only
  split <;> exact ⟨rfl, rfl⟩

theorem Keeps.applyCancel (h : s.record? r = some q) (sequence price volume : Nat) :
    Keeps s (s.applyCancel r q sequence price volume) := by
  unfold State.applyCancel
  split
  · next p _ =>
    obtain ⟨hcode, hcells⟩ := QuoteRecord.cancelFound_named q p
    have hmarked := Keeps.recordMarked h hcode hcells (fun hl => QuoteRecord.cancelFound_lawful hl p) q.cells
    refine Keeps.trans ?_ (Keeps.cancel _ _ _ _ _ _ _)
    unfold State.afterCancelFound
    simp only
    split
    · exact hmarked.trans (Keeps.touch r (entryEvent_lastChanged _ _ _))
    · exact hmarked
  · exact (Keeps.recordMarked (q' := { q with volume := subtractVolume q.volume volume }) h rfl rfl (fun hl => hl) q.cells).trans
      (Keeps.cancel _ _ _ _ _ _ _)

theorem Keeps.applyHalt (h : s.record? r = some q) (reason : HaltReason) : Keeps s (s.applyHalt r q reason) := by
  unfold State.applyHalt
  split
  · exact Keeps.ofRecord h rfl rfl fun hl => hl
  · exact (Keeps.recordMarked h rfl rfl (q' := { q with halted := some reason, monitor := q.monitor.calmed })
      (fun hl => ⟨hl.1, Monitor.calmed_agrees hl.2.1 _⟩) q.cells).trans
        ((Keeps.touch r (entryEvent_alertOf _ _)).trans (Keeps.offer _ _ fun _ => rfl))

theorem Keeps.applyResume (h : s.record? r = some q) : Keeps s (s.applyResume r q) := by
  unfold State.applyResume
  split
  · exact Keeps.refl s
  · exact (Keeps.recordMarked h rfl rfl (q' := { q with
        halted := none, monitor := { q.monitor with baseline := settledBaseline q.last q.prevClose q.monitor.baseline } })
      (fun hl => ⟨hl.1, Monitor.agrees_baseline hl.2 settledBaseline_none⟩) q.cells).trans
        ((Keeps.touch r (entryEvent_alertOf _ _)).trans (Keeps.offer _ _ fun _ => rfl))

theorem Keeps.applyToRecord (h : s.record? r = some q) (sequence : Nat) (msg : MarketMsg) :
    Keeps s (s.applyToRecord r q sequence msg) := by
  cases msg with
  | print code price volume condition =>
    simp only [State.applyToRecord]
    split
    · exact Keeps.refl s
    · exact Keeps.applyPrint h _
  | quote code bid ask => exact Keeps.ofRecord h rfl rfl fun hl => hl
  | cancel code cancelled price volume => exact Keeps.applyCancel h _ _ _
  | halt code reason =>
    simp only [State.applyToRecord]
    split
    · exact Keeps.refl s
    · exact Keeps.applyHalt h _
  | resume code => exact Keeps.applyResume h
  | figures code prevClose opening high low volume =>
    exact Keeps.recordMarked (q' := q.figures prevClose opening high low volume) h rfl rfl
      (fun hl => QuoteRecord.figures_lawful hl _ _ _ _ _) q.cells
  | notice | dayStart | session | time => exact Keeps.refl s

end

theorem Keeps.applyUnlisted (sequence : Nat) (msg : MarketMsg) : Keeps s (s.applyUnlisted sequence msg) := by
  unfold State.applyUnlisted
  split
  · exact Keeps.refl s
  · split
    · split
      · exact Keeps.refl s
      · split
        · exact Keeps.offerTo .a rfl
        · exact Keeps.refl s
    · exact Keeps.cancelOn .a _ _ _ _ _
    · exact Keeps.refl s

theorem Keeps.applyMessage (sequence : Nat) (msg : MarketMsg) : Keeps s (s.applyMessage sequence msg) := by
  unfold State.applyMessage
  split
  · exact Keeps.ofStore rfl
  · unfold State.applySession
    split
    · exact (Keeps.ofStore (q := { s.store with session := .opened }) rfl).trans (Keeps.offer true true fun _ => rfl)
    · exact (Keeps.ofStore (q := { s.store with session := .closed }) rfl).trans (Keeps.offer true true fun _ => rfl)
  · exact Keeps.ofStore rfl
  · exact Keeps.offer true true fun _ => rfl
  · split
    · exact Keeps.applyUnlisted _ _
    · split
      · exact Keeps.refl s
      · exact Keeps.applyToRecord ‹_› _ _

theorem Keeps.classify (m : IntakeMessage) : Keeps s (s.classify m) := by
  unfold State.classify
  split
  · exact Keeps.ofCounters fun ⟨h1, h2, h3, h4, h5, h6, h7, h8, h9, h10, h11, _, h13⟩ =>
      ⟨h1, h2, h3, h4, h5, h6, h7, h8, h9, h10, h11, bump_le _ _, h13⟩
  · split
    · exact Keeps.countMalformed
    · exact Keeps.applyMessage _ _

theorem Keeps.headTaken {head : IntakeMessage} {rest : List IntakeMessage} (h : s.intake.queue = head :: rest) :
    Keeps s { s with intake := { s.intake with queue := rest } } := by
  refine Keeps.ofIntake (fun hs => ?_) (fun hs => hs.2.1) (fun hs m hm => hs.2.2.1 m ?_) fun hm => ?_
  · have hlen := hs.1
    rw [h, List.length_cons] at hlen
    exact Nat.le_of_succ_le hlen
  · rw [h]
    exact List.mem_cons_of_mem _ hm
  · simp only [Intake.holdsMarked, h, List.any_cons, Bool.or_eq_true]
    exact Or.inr hm

/-! ### The desk line (R123 to R139) -/

/-- The line goes from one resting state to another that is no claim round, its transaction and slot as they stand. -/
theorem Keeps.resting {d : Desk} (hs : d.stations = s.desk.stations) (ht : d.transaction = s.desk.transaction)
    (hslot : d.slot = s.desk.slot) (hrest : restingLine s.desk.line = true) (hline : restingLine d.line = true)
    (hclaim : d.line ≠ .claim) : Keeps s { s with desk := d } := by
  refine Keeps.ofDesk (DeskKeeps.ofLine hs (fun h => ?_) fun _ _ hp => by simpa only [Desk.pagesBounded, ht, hslot] using hp)
  have hnone : s.desk.transaction = none := by
    cases htt : s.desk.transaction with
    | none => rfl
    | some t => exact absurd hrest (by simp [((Desk.transactionSound_some htt).1 h.2.1).1])
  exact ⟨(Desk.transactionSound_none (ht.trans hnone)).2 hline,
    Desk.slotSound_rest hs (ht.trans hnone) hclaim hslot h.2.2⟩

theorem Keeps.startClearing (hrest : restingLine s.desk.line = true) : Keeps s s.startClearing :=
  Keeps.resting rfl rfl rfl hrest rfl (nomatch ·)

theorem Keeps.signals (attn busy : Bool) : Keeps s (s.signals attn busy) := Keeps.ofDesk (DeskKeeps.ofSame rfl rfl rfl rfl)

theorem Keeps.signalsSeen : Keeps s s.signalsSeen := by
  unfold State.signalsSeen
  split
  · refine Keeps.ofDesk ?_
    unfold stuckWatched
    split
    · split <;> exact DeskKeeps.ofSame rfl rfl rfl rfl
    · exact DeskKeeps.ofSame rfl rfl rfl rfl
  · split
    · exact Keeps.refl s
    · exact (Keeps.ofDesk (d := { s.desk with retryAt := none }) (DeskKeeps.ofSame rfl rfl rfl rfl)).trans Keeps.freeLine
  · exact Keeps.refl s

/-- A suspended page marked as started goes before its causing station's alerts (R124). -/
theorem Keeps.causingStarted {p : SuspendedPage} (hp : s.desk.slot = some p) (hdue : s.desk.resumptionDue p = false) :
    Keeps s (State.startAlert { s with desk := { s.desk with slot := some { p with started := true } } } p.causing) := by
  have hstarted : Keeps s { s with desk := { s.desk with slot := some { p with started := true } } } :=
    Keeps.ofDesk (DeskKeeps.ofNarrowed rfl rfl id (fun t ht => ⟨t, ht, ⟨rfl, rfl, fun _ h => h, fun l hl => ⟨l, hl, rfl⟩,
      fun page hpage => ⟨page, hpage, le_rfl⟩⟩⟩) fun p' hp' => ⟨p, hp, by
        rw [← Option.some.inj hp']
        exact ⟨rfl, rfl, rfl, le_rfl⟩⟩)
  refine hstarted.trans (Keeps.startAlert (fun _ => ?_) fun hl p' hp' => ?_)
  · unfold Desk.resumptionDue at hdue
    cases hst : s.desk.stations[p.causing]? with
    | none => simp [hst] at hdue
    | some st =>
      refine ⟨st, hst, ?_⟩
      simp only [hst, Bool.or_eq_false_iff, decide_eq_false_iff_not, not_not] at hdue
      exact hdue.2.1
  · obtain ⟨-, hcausing, -⟩ := (Desk.slotSound_some hp').1 hl.2.2
    rw [← Option.some.inj hp'] at hcausing ⊢
    exact hcausing

theorem Keeps.readyTaken {t : Transaction} {page : Page} (ht : s.desk.transaction = some t) (hpage : t.page = some page) :
    Keeps s (s.readyTaken t page) := by
  unfold State.readyTaken
  simp only
  split
  · next reply _ =>
    have hphase : Keeps (s.modifyStation t.station fun st => { st with failedRun := 0 })
        { s.modifyStation t.station fun st => { st with failedRun := 0 } with
          desk := { (s.modifyStation t.station fun st => { st with failedRun := 0 }).desk with
            line := if reply then .reply else .delivery } } :=
      Keeps.ofDesk (DeskKeeps.ofPhase rfl rfl ht ht (fun _ => by cases reply <;> rfl))
    exact (Keeps.runReset ht).trans (hphase.trans (Keeps.sendNext (t := t) ht hpage))
  · exact (Keeps.runReset ht).trans (Keeps.startPage (s := s.modifyStation t.station fun st => { st with failedRun := 0 })
      ht rfl rfl page)

end

end Sys2Proof.Machine
end


section
/-! PROOF. Every step keeps the laws of O56 to O60: each command's arm by the operations it is made of, an idle millisecond,
and the state after reset. -/

namespace Sys2Proof.Machine

section
variable {s t : State}

/-! ### The arms of the opcode table -/

/-- An outcome that is a next state which keeps the laws, or no next state. -/
def Keeping (s : State) (o : Host.Outcome State Fault Refusal) : Prop := ∀ t, o = .next t → Keeps s t

theorem Keeping.next (h : Keeps s t) : Keeping s (.next t) := by
  rintro _ ⟨⟩
  exact h

theorem Keeping.fault (f : Fault) : Keeping s (.fault f) := fun _ h => nomatch h

theorem Keeping.same : Keeping s (.next s) := .next (Keeps.refl s)

/-- A command's row (Table 9-1). -/
theorem Keeping.command {c : Command} {row : Nat → Instr} {addr : Nat}
    (h : exec (row addr) s = .next (s.passCommand addr (dealCommand c))) : Keeping s (exec (row addr) s) :=
  h ▸ .next (Keeps.passCommand addr c)

theorem Keeping.assign (addr candidate : Nat) : Keeping s (execAssign addr candidate s) := by
  unfold execAssign
  split
  · split
    · exact .fault _
    · exact .next (Keeps.passAssign candidate)
  · exact .next (Keeps.passed answered_assign addr)

theorem Keeping.unknownCommand (addr number : Nat) (body : List Byte) : Keeping s (execUnknownCommand addr number body s) := by
  unfold execUnknownCommand
  split
  · exact .next (Keeps.passed (answered_unknown number) addr)
  · exact .same

theorem Keeping.loadSymbolCompletion : Keeping s (execLoadSymbolCompletion s) := by
  unfold execLoadSymbolCompletion
  split
  · next a held hop =>
    rw [State.completeOperation_eq]
    exact .next ((Keeps.loadDone hop).trans Keeps.serveHeld)
  · exact .same

theorem Keeping.addAliasCompletion : Keeping s (execAddAliasCompletion s) := by
  unfold execAddAliasCompletion
  split
  · next code record held hop =>
    rw [State.completeOperation_eq]
    exact .next ((Keeps.aliasAddedDone hop).trans Keeps.serveHeld)
  · exact .same

theorem Keeping.dropAliasCompletion : Keeping s (execDropAliasCompletion s) := by
  unfold execDropAliasCompletion
  split
  · next code held hop =>
    rw [State.completeOperation_eq]
    exact .next ((Keeps.aliasDroppedDone hop).trans Keeps.serveHeld)
  · exact .same

theorem Keeping.dropSymbolCompletion : Keeping s (execDropSymbolCompletion s) := by
  unfold execDropSymbolCompletion
  split
  · next code r held hop =>
    rw [State.completeOperation_eq]
    exact .next ((Keeps.dropDone hop).trans Keeps.serveHeld)
  · exact .same

theorem Keeping.feedMessageReceived (last : Byte) : Keeping s (execFeedMessageReceived last s) := by
  unfold execFeedMessageReceived
  split
  · next hcompletes =>
    split
    · exact .next (Keeps.receiveWhole (u := s.arrived) Keeps.arrived (Keeps.forwarded hcompletes))
    · exact .fault _
  · exact .same

theorem Keeping.feedCharacterReceived (arrival : Arrival) : Keeping s (execFeedCharacterReceived arrival s) := by
  unfold execFeedCharacterReceived
  split
  · next hjoins =>
    split
    · exact .next (Keeps.joined hjoins)
    · exact .fault _
  · exact .same

theorem Keeping.framingFault (arrival : Arrival) : Keeping s (execFramingFault arrival s) := by
  unfold execFramingFault
  split
  · exact .next (Keeps.framingFault _)
  · exact .same

theorem Keeping.lossOfLockOnSilence : Keeping s (execLossOfLockOnSilence s) := by
  unfold execLossOfLockOnSilence
  split
  · exact .next Keeps.lossOnSilence
  · exact .same

theorem Keeping.feedLost : Keeping s (execFeedLost s) := by
  unfold execFeedLost
  split
  · next h => exact .next (Keeps.declareLost h.2)
  · exact .same

theorem Keeping.feedInQuiet : Keeping s (execFeedInQuiet s) :=
  .next (Keeps.ofFeed (f := { s.feed with timing := .crystal })
    (fun ⟨hframed, hlock, h1, h2, h3, h4, h5, _⟩ => ⟨hframed, hlock, h1, h2, h3, h4, h5, (nomatch ·)⟩) rfl le_rfl)

theorem Keeping.replyExpiry (position : Nat) : Keeping s (execReplyExpiry position s) := by
  unfold execReplyExpiry
  split
  · exact .same
  · split
    · exact .next (Keeps.replyExpired position)
    · exact .same

theorem Keeping.classifierTake : Keeping s (execClassifierTake s) := by
  unfold execClassifierTake
  split
  · exact .same
  · next head rest hqueue =>
    split
    · exact .next ((Keeps.headTaken hqueue).trans ((Keeps.classify head).trans Keeps.beginWorking))
    · exact .same

/-- A record that stands in the table, changed in fields that no other table speaks of. -/
theorem Keeps.ofMember {r : Nat} {q q' : QuoteRecord} (h : (r, q) ∈ s.store.records) (hcode : q'.code = q.code)
    (hcells : q'.cells = q.cells) (hlawful : q.lawful → q'.lawful) : Keeps s (s.setRecord r q') :=
  { Keeps.refl s with
    references := fun hr => State.setRecord_references (tableGet_of_mem hr.2.2.1.1 h) hcode hcells hr
    records := fun hr => by
      refine ⟨fun e he => ?_, hr.2⟩
      rcases mem_tableSet he with rfl | he
      · exact hlawful (hr.1 _ h)
      · exact hr.1 e he
    pages := fun _ _ hp => hp }

theorem Keeping.dayStartWalkStep : Keeping s (execDayStartWalkStep s) := by
  unfold execDayStartWalkStep
  split
  · exact .same
  · split
    · exact .same
    · next r q hnext =>
      have hdayStarted : Keeps s (s.setRecord r q.dayStarted) :=
        Keeps.ofMember (List.mem_of_find?_eq_some hnext) rfl rfl QuoteRecord.dayStarted_lawful
      exact .next (hdayStarted.trans ((Keeps.mark q.cells).trans (Keeps.ofStore rfl)))

theorem Keeping.dayStartWalkCompletion : Keeping s (execDayStartWalkCompletion s) := by
  unfold execDayStartWalkCompletion
  split
  · exact .same
  · split
    · exact .same
    · have hwalk : Keeps s { s with store := { s.store with walk := none } } := Keeps.ofStore rfl
      exact .next (hwalk.trans ((Keeps.ofDesk (s := { s with store := { s.store with walk := none } })
        (DeskKeeps.ofMap fun _ => StationKeeps.clearMarks)).trans (Keeps.beginWorking.trans Keeps.serveHeld)))

theorem Keeping.floorTimeAdvance : Keeping s (execFloorTimeAdvance s) := by
  unfold execFloorTimeAdvance
  split
  · exact .next (Keeps.ofStore rfl)
  · exact .same

theorem Keeping.holdExpiry (r : Nat) : Keeping s (execHoldExpiry r s) := by
  unfold execHoldExpiry
  split
  · exact .same
  · next q hq =>
    split
    · exact .next ((Keeps.recordMarked (q' := q.recentred) hq rfl rfl QuoteRecord.recentred_lawful q.cells).trans
        (Keeps.touch r entryEvent_noAlert))
    · exact .same

theorem Keeping.ribbonCompletion (id : TapeId) : Keeping s (execRibbonCompletion id s) := by
  unfold execRibbonCompletion
  split
  · exact .next (Keeps.ribbonCompleted id)
  · exact .same

theorem Keeping.boardAnswer (panel count check : Byte) : Keeping s (execBoardAnswer panel count check s) := by
  unfold execBoardAnswer
  split
  · exact .same
  · next blk hblk =>
    split
    · exact .same
    · split
      · exact .next (Keeps.succeed hblk)
      · exact .next (Keeps.failBlock blk)

theorem Keeping.boardAnswerGap (characters : List Byte) : Keeping s (execBoardAnswerGap characters s) := by
  unfold execBoardAnswerGap
  split
  · exact .same
  · split
    · exact .next (Keeps.failBlock _)
    · exact .same

theorem Keeping.blockDeadline : Keeping s (execBlockDeadline s) := by
  unfold execBlockDeadline
  split
  · exact .same
  · split
    · exact .next (Keeps.failBlock _)
    · exact .same

theorem Keeping.sweepExpiry : Keeping s (execSweepExpiry s) := by
  unfold execSweepExpiry
  split
  · exact .next (Keeps.swept _)
  · exact .same

theorem Keeping.presenceScan (reading : BitVec 16) : Keeping s (execPresenceScan reading s) := by
  unfold execPresenceScan
  split
  · have hscanned := Keeps.foldl (f := State.scanStation reading) (fun _ n => Keeps.scanStation reading n) (List.range 16) s
    generalize (List.range 16).foldl (State.scanStation reading) s = u at hscanned ⊢
    exact .next (hscanned.trans (Keeps.ofDesk (DeskKeeps.ofSame rfl rfl rfl rfl)))
  · exact .same

theorem Keeping.arbiterStart : Keeping s (execArbiterStart s) := by
  unfold execArbiterStart
  split
  · exact .same
  · next hfree =>
    have hline : s.desk.line = .free := by
      by_contra hline
      exact hfree (Or.inl hline)
    split
    · next hslot => exact .next (Keeps.arbiterStarts hline hslot)
    · next p hp =>
      split
      · exact .next (Keeps.startResumption hp)
      · next hdue => exact .next (Keeps.causingStarted hp (by simpa using hdue))

theorem Keeping.slotAnswer (station : Nat) : Keeping s (execSlotAnswer station s) := by
  unfold execSlotAnswer
  split
  · split
    · exact .same
    · split
      · exact .same
      · exact .next (Keeps.ofDesk (DeskKeeps.ofSame rfl rfl rfl rfl))
  · exact .next Keeps.strayFrame

theorem Keeping.claimRoundCompletion : Keeping s (execClaimRoundCompletion s) := by
  have claims {n : Nat} {rest : List Nat} {p : Nat → Bool} (h : s.desk.claimants.filter p = n :: rest) :
      s.desk.isClaimant n = true := by
    have hmem : n ∈ s.desk.claimants := List.mem_of_mem_filter (h ▸ List.mem_cons_self)
    exact (List.mem_filter.1 (List.mem_reverse.1 hmem)).2
  unfold execClaimRoundCompletion
  split
  · exact .same
  · next hline =>
    have hclaim : s.desk.line = .claim := by simpa using hline
    split
    · exact .next Keeps.freeLine
    · next hfilter => exact .next (Keeps.select hclaim (claims hfilter) false)
    · next hclaimants _ =>
      exact .next (Keeps.select hclaim (claims (p := fun _ => true) (by simpa using hclaimants)) true)

theorem Keeping.answer (station : Nat) : Keeping s (execAnswer station s) := by
  unfold execAnswer
  split
  · exact .same
  · next u hu =>
    split
    · split
      · exact .next (Keeps.ofDesk (DeskKeeps.ofPhase rfl rfl hu rfl fun _ => rfl))
      · exact .same
    · exact .next Keeps.strayFrame

theorem Keeping.deskFrameIncomplete : Keeping s (execDeskFrameIncomplete s) := by
  unfold execDeskFrameIncomplete
  split
  · exact .next Keeps.checkErrorFrame
  · exact .same

/-- A request that needs a lookup (R144, R146, R147, R149, R150). -/
theorem Keeping.lookup (kind : Option RequestKind) (sound : Bool) (request : LookupRequest) :
    Keeping s (.next (s.takeRequest fun t => s.serveTested kind sound t fun t => s.lookupRequest t request)) :=
  .next (Keeps.takeRequest fun _ hu => Keeps.serveTested hu _ _ fun _ => Keeps.lookupRequest hu _)

theorem Keeping.watchPage : Keeping s (execWatchPage s) :=
  .next (Keeps.takeRequest fun _ hu => Keeps.serveTested hu _ _ fun _ => Keeps.replyWith hu rfl _)

theorem Keeping.setMode (mode interval : Nat) : Keeping s (execSetMode mode interval s) :=
  .next (Keeps.takeRequest fun _ hu => Keeps.serveTested hu _ _ fun _ => Keeps.setModeFor hu _ _)

theorem Keeping.unknownRequestKind : Keeping s (execUnknownRequestKind s) :=
  .next (Keeps.takeRequest fun _ hu => Keeps.serveTested hu _ _ fun hsound => nomatch hsound)

theorem Keeping.lineCompletion : Keeping s (execLineCompletion s) := by
  unfold execLineCompletion
  split
  · exact .same
  · next u hu =>
    split
    · next line page hline hpage =>
      exact .next ((Keeps.modifyStation fun _ _ => StationKeeps.lineDelivered u.kind page line.source).trans
        (Keeps.lineGap (s := s.modifyStation u.station (Station.lineDelivered u.kind page line.source)) hu hpage))
    · exact .same

theorem Keeping.endCompletion : Keeping s (execEndCompletion s) := by
  unfold execEndCompletion
  split
  · exact .same
  · next u hu =>
    split
    · exact .next (Keeps.ofDesk (DeskKeeps.ofTransaction rfl rfl hu rfl rfl id (fun _ hc => (nomatch hc))
        (fun _ _ hp page hpage => hp.1 u page hu hpage) fun _ _ _ _ hh => (nomatch hh)))
    · exact .same

theorem Keeping.suspendCompletion : Keeping s (execSuspendCompletion s) := by
  unfold execSuspendCompletion
  split
  · exact .same
  · next u hu =>
    split
    · next causing page ho hpage => exact .next (Keeps.suspended hu hpage ho _)
    · exact .same

theorem Keeping.receipt (station : Nat) : Keeping s (execReceipt station s) := by
  unfold execReceipt
  split
  · exact .same
  · split
    · split
      · exact .next Keeps.freeLine
      · exact .next ((Keeps.modifyStation fun _ _ => StationKeeps.countCheckError).trans Keeps.freeLine)
    · exact .next Keeps.strayFrame

theorem Keeping.ready (station : Nat) : Keeping s (execReady station s) := by
  unfold execReady
  split
  · exact .same
  · next u hu =>
    split
    · split
      · exact .same
      · next page hpage =>
        split
        · exact .next (Keeps.readyTaken hu hpage)
        · exact .same
    · exact .next Keeps.strayFrame

theorem Keeping.windowExpiry : Keeping s (execWindowExpiry s) := by
  unfold execWindowExpiry
  split
  · exact .same
  · next u hu =>
    split
    · split
      · exact .next (Keeps.deliveryFailed hu)
      · exact .next ((Keeps.modifyStation fun _ _ => StationKeeps.countTimeout).trans Keeps.freeLine)
    · exact .same

theorem Keeping.deskSignalChange (attn busy : Bool) : Keeping s (execDeskSignalChange attn busy s) := by
  unfold execDeskSignalChange
  split
  · exact .next ((Keeps.signals attn busy).trans (Keeps.abort fun _ => StationKeeps.countLost))
  · exact .next ((Keeps.signals attn busy).trans Keeps.signalsSeen)

theorem Keeping.stuckDeadlineExpiry : Keeping s (execStuckDeadlineExpiry s) := by
  unfold execStuckDeadlineExpiry
  split
  · next hdue =>
    simp only [State.stuckDue, Bool.and_eq_true, decide_eq_true_eq] at hdue
    exact .next (Keeps.startClearing (by rw [hdue.1]; rfl))
  · exact .same

theorem Keeping.clearSequenceCompletion : Keeping s (execClearSequenceCompletion s) := by
  unfold execClearSequenceCompletion
  split
  · exact .same
  · next hline =>
    have hclearing : s.desk.line = .clearing := by simpa using hline
    split
    · exact .next (Keeps.resting rfl rfl rfl (by rw [hclearing]; rfl) rfl (nomatch ·))
    · exact .next Keeps.freeLine

theorem Keeping.retryDeadlineExpiry : Keeping s (execRetryDeadlineExpiry s) := by
  unfold execRetryDeadlineExpiry
  split
  · next h => exact .next (Keeps.startClearing (by rw [h.1]; rfl))
  · exact .same

theorem Keeping.streamTimerExpiry (station : Nat) : Keeping s (execStreamTimerExpiry station s) := by
  unfold execStreamTimerExpiry
  split
  · exact .same
  · next st hst =>
    split
    · next hdue =>
      refine .next (Keeps.modifyStation (n := station) fun x hx => StationKeeps.streamExpired (now := s.clock) ?_ _)
      rw [← Option.some.inj (hst.symm.trans hx)]
      exact hdue
    · exact .same

/-- Every command of the opcode table keeps the laws. -/
theorem exec_keeps (i : Instr) : Keeping s (exec i s) := by
  cases i with
  | powerOn straps => exact .next (Keeps.powerOn straps)
  | ackRestart addr => exact .command (c := .ackRestart) (row := .ackRestart) rfl
  | restartKeep addr => exact .command (c := .restartKeep) (row := .restartKeep) rfl
  | restartClear addr => exact .command (c := .restartClear) (row := .restartClear) rfl
  | loadSymbol addr args => exact .command (c := .loadSymbol args) (row := fun n => .loadSymbol n args) rfl
  | addAlias addr code record => exact .command (c := .addAlias code record) (row := fun n => .addAlias n code record) rfl
  | dropAlias addr code => exact .command (c := .dropAlias code) (row := fun n => .dropAlias n code) rfl
  | dropSymbol addr code => exact .command (c := .dropSymbol code) (row := fun n => .dropSymbol n code) rfl
  | loadSymbolCompletion => exact .loadSymbolCompletion
  | addAliasCompletion => exact .addAliasCompletion
  | dropAliasCompletion => exact .dropAliasCompletion
  | dropSymbolCompletion => exact .dropSymbolCompletion
  | setCell addr panel cell record =>
    exact .command (c := .setCell panel cell record) (row := fun n => .setCell n panel cell record) rfl
  | setMonitor addr record settings =>
    exact .command (c := .setMonitor record settings) (row := fun n => .setMonitor n record settings) rfl
  | loadWatch addr station entries =>
    exact .command (c := .loadWatch station entries) (row := fun n => .loadWatch n station entries) rfl
  | clearWatch addr station => exact .command (c := .clearWatch station) (row := fun n => .clearWatch n station) rfl
  | setStation addr station mode interval =>
    exact .command (c := .setStation station mode interval) (row := fun n => .setStation n station mode interval) rfl
  | setParameter addr ident value =>
    exact .command (c := .setParameter ident value) (row := fun n => .setParameter n ident value) rfl
  | pauseBoard addr => exact .command (c := .pauseBoard) (row := .pauseBoard) rfl
  | continueBoard addr => exact .command (c := .continueBoard) (row := .continueBoard) rfl
  | restorePanel addr panel => exact .command (c := .restorePanel panel) (row := fun n => .restorePanel n panel) rfl
  | queryStatus addr part => exact .command (c := .queryStatus part) (row := fun n => .queryStatus n part) rfl
  | queryRecord addr part record =>
    exact .command (c := .queryRecord part record) (row := fun n => .queryRecord n part record) rfl
  | queryStation addr part station =>
    exact .command (c := .queryStation part station) (row := fun n => .queryStation n part station) rfl
  | queryWatch addr part station =>
    exact .command (c := .queryWatch part station) (row := fun n => .queryWatch n part station) rfl
  | queryCounters addr part => exact .command (c := .queryCounters part) (row := fun n => .queryCounters n part) rfl
  | clearCounters addr => exact .command (c := .clearCounters) (row := .clearCounters) rfl
  | assign addr candidate => exact .assign addr candidate
  | unknownCommand addr number body => exact .unknownCommand addr number body
  | feedMessageReceived last => exact .feedMessageReceived last
  | framingFault arrival => exact .framingFault arrival
  | lossOfLockOnSilence => exact .lossOfLockOnSilence
  | feedLost => exact .feedLost
  | feedOutFree => exact .next Keeps.whenFree
  | feedInQuiet => exact .feedInQuiet
  | replyExpiry position => exact .replyExpiry position
  | classifierTake => exact .classifierTake
  | dayStartWalkStep => exact .dayStartWalkStep
  | dayStartWalkCompletion => exact .dayStartWalkCompletion
  | floorTimeAdvance => exact .floorTimeAdvance
  | holdExpiry record => exact .holdExpiry record
  | ribbonCompletion tape => exact .ribbonCompletion tape
  | blockAssembly => exact .next Keeps.assemble
  | boardAnswer panel count check => exact .boardAnswer panel count check
  | boardAnswerGap characters => exact .boardAnswerGap characters
  | blockDeadline => exact .blockDeadline
  | sweepExpiry => exact .sweepExpiry
  | presenceScan reading => exact .presenceScan reading
  | arbiterStart => exact .arbiterStart
  | slotAnswer station => exact .slotAnswer station
  | claimRoundCompletion => exact .claimRoundCompletion
  | answer station => exact .answer station
  | checkError => exact .next Keeps.checkErrorFrame
  | quoteRequest code => exact .lookup _ _ _
  | recent code => exact .lookup _ _ _
  | watchPage => exact .watchPage
  | watchAdd code above below move => exact .lookup _ _ _
  | watchDrop code => exact .lookup _ _ _
  | setMode mode interval => exact .setMode mode interval
  | lineCompletion => exact .lineCompletion
  | endCompletion => exact .endCompletion
  | suspendCompletion => exact .suspendCompletion
  | receipt station => exact .receipt station
  | ready station => exact .ready station
  | deskFrameIncomplete => exact .deskFrameIncomplete
  | windowExpiry => exact .windowExpiry
  | deskSignalChange attn busy => exact .deskSignalChange attn busy
  | stuckDeadlineExpiry => exact .stuckDeadlineExpiry
  | clearSequenceCompletion => exact .clearSequenceCompletion
  | retryDeadlineExpiry => exact .retryDeadlineExpiry
  | streamTimerExpiry station => exact .streamTimerExpiry station
  | feedCharacterReceived arrival => exact .feedCharacterReceived arrival
  | unknownRequestKind => exact .unknownRequestKind

/-- Every step keeps the laws: the front command's arm, or an idle millisecond. -/
theorem step_keeps (h : step s = .next t) : Keeps s t := by
  unfold step at h
  split at h
  · obtain rfl := (Host.Outcome.next.injEq _ _).mp h
    exact Keeps.passMillisecond
  · next c rest _ =>
    exact (Keeps.ofManager s s.clock s.manager rest).trans (exec_keeps c t h)

end

/-! ### The obligations -/

/-- Settles O56: the references law is one of the laws that every step keeps (`step_keeps`). -/
theorem stepKeepsReferences : Obligations.StepKeepsReferences := fun _ _ h hstep => (step_keeps hstep).references h

/-- Settles O57: the laws of records and of tapes among those that every step keeps (`step_keeps`). -/
theorem stepKeepsRecordsAndTapes : Obligations.StepKeepsRecordsAndTapes :=
  ⟨fun _ _ h hstep => (step_keeps hstep).records h, fun _ _ h hstep => (step_keeps hstep).tapes h⟩

/-- Settles O58: the laws of board, parameters and counters among those that every step keeps (`step_keeps`). -/
theorem stepKeepsBoardAndSettings : Obligations.StepKeepsBoardAndSettings := by
  intro s t hboard hordered hranged hcounters hstations hstep
  have hkeeps := step_keeps hstep
  exact ⟨hkeeps.board hboard, hkeeps.ordered hordered, hkeeps.ranged hranged, hkeeps.counters hcounters,
    hkeeps.stationCounts hstations⟩

/-- Settles O59: the desk's laws among those that every step keeps (`step_keeps`); a lawful station's list is one of at most
twelve entries, which bounds a WATCH page. -/
theorem stepKeepsDeskLawful : Obligations.StepKeepsDeskLawful :=
  ⟨fun _ _ hstations hline hstep => (step_keeps hstep).desk hstations hline,
    fun _ _ hstations hrecords hpages hstep =>
      (step_keeps hstep).pages (fun st hst => (hstations.2 st hst).1.1) hrecords hpages⟩

/-- Settles O60: the repeater's, the places' and intake's laws among those that every step keeps (`step_keeps`); the bound of
320 characters is the first part of the repeater's. -/
theorem stepKeepsFeedLawful : Obligations.StepKeepsFeedLawful := by
  intro s t hfeed hplaces hintake hrecords hboard hstep
  have hkeeps := step_keeps hstep
  have hlawful := hkeeps.feed hrecords hboard hfeed
  have hbound := hlawful.2.2.1
  exact ⟨hlawful, by omega, hkeeps.places hplaces, hkeeps.intake hintake⟩

/-- Settles O55: the state after reset is one that power-on leaves (`State.powered_laws`). -/
theorem resetKeepsEveryLaw : Obligations.ResetKeepsEveryLaw := by
  obtain ⟨h1, h2, h3, h4, h5, h6, h7, h8, h9, h10, h11, h12, h13, h14⟩ := State.powered_laws 0 0 false false
  exact ⟨h1, h2, h3, h4, h9, h10, h11, h8, h12, h13, h14, h5, h6, h7⟩

end Sys2Proof.Machine
end


section
/-! PROOF. The step, the stops, power-on and the restarts (R165, R178, R183, R184), and the unit manager's own commands (R180,
R182, R188). -/

namespace Sys2Proof.Machine

/-! ### The step and its queue (O1, O3) -/

/-- The share that a quiet FEED IN leaves is what the crystal times from (R166). -/
theorem Repeater.quietThrough_of_quiet {f : Repeater} {now : Reading} (h : f.timing = .crystal ∨ f.lastArrival ≠ now) :
    f.quietThrough now = { f with timing := .crystal } := by
  unfold Repeater.quietThrough
  split
  · next hnow =>
    rcases h with htiming | hother
    · rw [← htiming]
    · exact absurd hnow hother
  · rfl

/-- Timed by the crystal, FEED OUT sends the characters whose time has passed in the millisecond. -/
theorem Repeater.crystalMillisecond_timed {f : Repeater} (h : f.timing = .crystal) :
    f.crystalMillisecond =
      { f.sendCharacters ((f.crystalShare + 288) / 55) with crystalShare := (f.crystalShare + 288) % 55 } := by
  simp only [Repeater.crystalMillisecond, h, crystalStep]

theorem Repeater.sendCharacters_heldFlag (f : Repeater) (count : Nat) : (f.sendCharacters count).heldFlag = f.heldFlag := by
  rw [Repeater.sendCharacters_frame]

theorem Repeater.sendCharacters_lastArrival (f : Repeater) (count : Nat) :
    (f.sendCharacters count).lastArrival = f.lastArrival := by
  rw [Repeater.sendCharacters_frame]

/-- Settles O1: the two equations of `step`; in an idle millisecond a quiet FEED IN leaves FEED OUT to the crystal. -/
theorem stepRunsFrontCommand : Obligations.StepRunsFrontCommand := by
  refine ⟨fun _ _ _ => rfl, ?_⟩
  intro s hpending passed held
  have hstep : step s = .next (passMillisecond s) := by simp only [step, hpending]
  refine ⟨fun hquiet => ?_, fun htiming harrival => ?_⟩
  · rw [hstep, passMillisecond, Repeater.quietThrough_of_quiet hquiet, Repeater.crystalMillisecond_timed rfl,
      Repeater.flagDropped]
    simp only [Repeater.sendCharacters_heldFlag, Repeater.sendCharacters_lastArrival]
    rfl
  · have hkept : s.feed.quietThrough s.clock = s.feed := by rw [Repeater.quietThrough, if_pos harrival]
    have hidle : s.feed.crystalMillisecond = s.feed := by simp only [Repeater.crystalMillisecond, htiming]
    rw [hstep, passMillisecond, hkept, hidle]
    rfl

/-- Settles O3: every value read off the state after reset. -/
theorem resetHoldsPowerOnValues : Obligations.ResetHoldsPowerOnValues := by
  unfold Obligations.ResetHoldsPowerOnValues
  refine ⟨rfl, rfl, rfl, rfl, rfl, rfl, rfl, rfl, rfl, rfl, rfl, rfl, rfl, rfl, rfl, rfl, rfl, rfl, rfl, rfl, rfl, rfl, rfl, rfl,
    rfl, rfl, rfl, rfl, rfl, rfl, rfl, rfl, ⟨_, rfl⟩, rfl, rfl, rfl, rfl, rfl⟩

/-! ### The only stop (O2) -/

/-- What FEED OUT sends never adds to the forward queue (R166). -/
theorem Repeater.whenFree_count (f : Repeater) : f.whenFree.forwardCount ≤ f.forwardCount := by
  have hafter : (f.afterSending.map List.length).sum ≤ (f.forward.map List.length).sum := by
    unfold Repeater.afterSending
    split
    · cases f.forward <;> simp
    · exact le_rfl
  by_cases hfree : f.unsent = []
  · by_cases hr : f.filled = [] ∨ 256 < f.leftCount
    · rw [Repeater.whenFree_message hfree hr]
      simp only [Repeater.forwardCount]
      omega
    · obtain ⟨hne, hl⟩ := not_or.1 hr
      obtain ⟨first, more, heq⟩ := List.exists_cons_of_ne_nil hne
      rw [Repeater.whenFree_reply hfree heq (by omega)]
      simp only [Repeater.forwardCount]
      omega
  · rw [Repeater.whenFree_busy hfree]

theorem Repeater.sendCharacter_count (f : Repeater) : f.sendCharacter.forwardCount ≤ f.forwardCount := by
  refine le_trans ?_ (Repeater.whenFree_count f)
  unfold Repeater.sendCharacter
  generalize f.whenFree = g
  simp only
  split
  · exact le_rfl
  · cases hg : g.forward with
    | nil => simp [Repeater.forwardCount, hg]
    | cons head rest =>
      simp only [Repeater.forwardCount, hg, moveHead_cons, List.map_cons, List.sum_cons, List.length_drop]
      omega
  · exact le_rfl

theorem Repeater.takeCharacters_count (f : Repeater) (message : List FeedChar) :
    (f.takeCharacters message).forwardCount ≤ f.forwardCount + message.length := by
  induction message generalizing f with
  | nil => exact le_rfl
  | cons c rest ih =>
    refine (ih { f.sendCharacter with arriving := f.arriving ++ [c] }).trans ?_
    have hsent := Repeater.sendCharacter_count f
    simp only [Repeater.forwardCount, Repeater.sendCharacter_arriving] at hsent
    simp only [Repeater.forwardCount, List.length_append, List.length_cons, List.length_nil]
    omega

/-- A replacement adds no more than its seven characters (R179). -/
theorem Repeater.replaceAssign_count (f : Repeater) (candidate : Nat) :
    (f.replaceAssign candidate).forwardCount ≤ f.forwardCount + 7 := by
  unfold Repeater.replaceAssign
  split
  · next hnewest =>
    obtain ⟨front, hfront⟩ := List.getLast?_eq_some_iff.1 hnewest
    simp [Repeater.forwardCount, hfront, length_assignMessage]
  · have htaken := Repeater.takeCharacters_count f (assignMessage (candidate + 1))
    have hframe := (Repeater.takeCharacters_frame f (assignMessage (candidate + 1))).1
    have harriving : (f.takeCharacters (assignMessage (candidate + 1))).arriving =
        f.arriving ++ assignMessage (candidate + 1) := by rw [hframe]
    simp only [Repeater.forwardCount, harriving, List.length_append, length_assignMessage] at htaken
    simp only [Repeater.forwardCount, Repeater.takeMessage, List.map_append, List.sum_append, List.map_cons, List.map_nil,
      List.sum_cons, List.sum_nil, length_assignMessage]
    omega

/-- A row with a next state, or the one stop of a forward queue with more than 505 places taken (R165). -/
def stopsOnlyFull (s : State) (o : Host.Outcome State Fault Refusal) : Prop :=
  (∃ t, o = .next t) ∨ (o = .fault .forwardQueueFull ∧ 505 < s.feed.forwardCount)

theorem stopsOnlyFull_next (s t : State) : stopsOnlyFull s (.next t) := Or.inl ⟨t, rfl⟩

theorem hasRoom_false {f : Repeater} {joining : Nat} (h : f.hasRoom joining = false) : 512 < f.forwardCount + joining := by
  simp only [Repeater.hasRoom, decide_eq_false_iff_not, not_or] at h
  omega

theorem execAssign_stops (addr candidate : Nat) (s : State) : stopsOnlyFull s (execAssign addr candidate s) := by
  unfold execAssign
  split
  · split
    · next hfull =>
      refine Or.inr ⟨rfl, ?_⟩
      obtain ⟨htakes, hcount⟩ := hfull
      rw [State.passAssign, if_pos htakes] at hcount
      have hreplaced := Repeater.replaceAssign_count (s.takeCandidate candidate).feed candidate
      have hfeed : (s.takeCandidate candidate).feed = s.feed := rfl
      rw [hfeed] at hreplaced
      simp only [hfeed] at hcount
      omega
    · exact stopsOnlyFull_next _ _
  · exact stopsOnlyFull_next _ _

theorem execFeedMessageReceived_stops (last : Byte) (s : State) : stopsOnlyFull s (execFeedMessageReceived last s) := by
  unfold execFeedMessageReceived
  split
  · split
    · exact stopsOnlyFull_next _ _
    · next hroom =>
      have hfull := hasRoom_false (by simpa using hroom)
      exact Or.inr ⟨rfl, by omega⟩
  · exact stopsOnlyFull_next _ _

theorem execFeedCharacterReceived_stops (arrival : Arrival) (s : State) :
    stopsOnlyFull s (execFeedCharacterReceived arrival s) := by
  unfold execFeedCharacterReceived
  split
  · split
    · exact stopsOnlyFull_next _ _
    · next hroom =>
      have hfull := hasRoom_false (by simpa using hroom)
      have hjoining : s.joining arrival ≤ 2 := by
        unfold State.joining
        split
        · split <;> omega
        · omega
      exact Or.inr ⟨rfl, by omega⟩
  · exact stopsOnlyFull_next _ _

/-- Every other row has a next state by each branch of its meaning. -/
theorem exec_stops (c : Instr) (s : State) : stopsOnlyFull s (exec c s) := by
  cases c with
  | assign addr candidate => exact execAssign_stops addr candidate s
  | feedMessageReceived last => exact execFeedMessageReceived_stops last s
  | feedCharacterReceived arrival => exact execFeedCharacterReceived_stops arrival s
  | unknownCommand addr number body =>
    simp only [exec, execUnknownCommand]
    split <;> exact stopsOnlyFull_next _ _
  | loadSymbolCompletion =>
    simp only [exec, execLoadSymbolCompletion]
    split <;> exact stopsOnlyFull_next _ _
  | addAliasCompletion =>
    simp only [exec, execAddAliasCompletion]
    split <;> exact stopsOnlyFull_next _ _
  | dropAliasCompletion =>
    simp only [exec, execDropAliasCompletion]
    split <;> exact stopsOnlyFull_next _ _
  | dropSymbolCompletion =>
    simp only [exec, execDropSymbolCompletion]
    split <;> exact stopsOnlyFull_next _ _
  | framingFault arrival =>
    simp only [exec, execFramingFault]
    split <;> exact stopsOnlyFull_next _ _
  | lossOfLockOnSilence =>
    simp only [exec, execLossOfLockOnSilence]
    split <;> exact stopsOnlyFull_next _ _
  | feedLost =>
    simp only [exec, execFeedLost]
    split <;> exact stopsOnlyFull_next _ _
  | replyExpiry position =>
    simp only [exec, execReplyExpiry]
    split
    · exact stopsOnlyFull_next _ _
    · split <;> exact stopsOnlyFull_next _ _
  | classifierTake =>
    simp only [exec, execClassifierTake]
    split
    · exact stopsOnlyFull_next _ _
    · split <;> exact stopsOnlyFull_next _ _
  | dayStartWalkStep =>
    simp only [exec, execDayStartWalkStep]
    split
    · exact stopsOnlyFull_next _ _
    · split <;> exact stopsOnlyFull_next _ _
  | dayStartWalkCompletion =>
    simp only [exec, execDayStartWalkCompletion]
    split
    · exact stopsOnlyFull_next _ _
    · split <;> exact stopsOnlyFull_next _ _
  | floorTimeAdvance =>
    simp only [exec, execFloorTimeAdvance]
    split <;> exact stopsOnlyFull_next _ _
  | holdExpiry record =>
    simp only [exec, execHoldExpiry]
    split
    · exact stopsOnlyFull_next _ _
    · split <;> exact stopsOnlyFull_next _ _
  | ribbonCompletion tape =>
    simp only [exec, execRibbonCompletion]
    split <;> exact stopsOnlyFull_next _ _
  | boardAnswer panel count check =>
    simp only [exec, execBoardAnswer]
    split
    · exact stopsOnlyFull_next _ _
    · split
      · exact stopsOnlyFull_next _ _
      · split <;> exact stopsOnlyFull_next _ _
  | boardAnswerGap characters =>
    simp only [exec, execBoardAnswerGap]
    split
    · exact stopsOnlyFull_next _ _
    · split <;> exact stopsOnlyFull_next _ _
  | blockDeadline =>
    simp only [exec, execBlockDeadline]
    split
    · exact stopsOnlyFull_next _ _
    · split <;> exact stopsOnlyFull_next _ _
  | sweepExpiry =>
    simp only [exec, execSweepExpiry]
    split <;> exact stopsOnlyFull_next _ _
  | presenceScan reading =>
    simp only [exec, execPresenceScan]
    split <;> exact stopsOnlyFull_next _ _
  | arbiterStart =>
    simp only [exec, execArbiterStart]
    split
    · exact stopsOnlyFull_next _ _
    · split
      · exact stopsOnlyFull_next _ _
      · split <;> exact stopsOnlyFull_next _ _
  | slotAnswer station =>
    simp only [exec, execSlotAnswer]
    split
    · split
      · exact stopsOnlyFull_next _ _
      · split <;> exact stopsOnlyFull_next _ _
    · exact stopsOnlyFull_next _ _
  | claimRoundCompletion =>
    simp only [exec, execClaimRoundCompletion]
    split
    · exact stopsOnlyFull_next _ _
    · split <;> exact stopsOnlyFull_next _ _
  | answer station =>
    simp only [exec, execAnswer]
    split
    · exact stopsOnlyFull_next _ _
    · split
      · split <;> exact stopsOnlyFull_next _ _
      · exact stopsOnlyFull_next _ _
  | deskFrameIncomplete =>
    simp only [exec, execDeskFrameIncomplete]
    split <;> exact stopsOnlyFull_next _ _
  | lineCompletion =>
    simp only [exec, execLineCompletion]
    split
    · exact stopsOnlyFull_next _ _
    · split <;> exact stopsOnlyFull_next _ _
  | endCompletion =>
    simp only [exec, execEndCompletion]
    split
    · exact stopsOnlyFull_next _ _
    · split <;> exact stopsOnlyFull_next _ _
  | suspendCompletion =>
    simp only [exec, execSuspendCompletion]
    split
    · exact stopsOnlyFull_next _ _
    · split <;> exact stopsOnlyFull_next _ _
  | receipt station =>
    simp only [exec, execReceipt]
    split
    · exact stopsOnlyFull_next _ _
    · split
      · split <;> exact stopsOnlyFull_next _ _
      · exact stopsOnlyFull_next _ _
  | ready station =>
    simp only [exec, execReady]
    split
    · exact stopsOnlyFull_next _ _
    · split
      · split
        · exact stopsOnlyFull_next _ _
        · split <;> exact stopsOnlyFull_next _ _
      · exact stopsOnlyFull_next _ _
  | windowExpiry =>
    simp only [exec, execWindowExpiry]
    split
    · exact stopsOnlyFull_next _ _
    · split
      · split <;> exact stopsOnlyFull_next _ _
      · exact stopsOnlyFull_next _ _
  | deskSignalChange attn busy =>
    simp only [exec, execDeskSignalChange]
    split <;> exact stopsOnlyFull_next _ _
  | stuckDeadlineExpiry =>
    simp only [exec, execStuckDeadlineExpiry]
    split <;> exact stopsOnlyFull_next _ _
  | clearSequenceCompletion =>
    simp only [exec, execClearSequenceCompletion]
    split
    · exact stopsOnlyFull_next _ _
    · split <;> exact stopsOnlyFull_next _ _
  | retryDeadlineExpiry =>
    simp only [exec, execRetryDeadlineExpiry]
    split <;> exact stopsOnlyFull_next _ _
  | streamTimerExpiry station =>
    simp only [exec, execStreamTimerExpiry]
    split
    · exact stopsOnlyFull_next _ _
    · split <;> exact stopsOnlyFull_next _ _
  | _ => exact stopsOnlyFull_next _ _

/-- Settles O2: by `exec_stops`, with 320 characters or fewer below the 505 at which the one stop begins. -/
theorem onlyFullForwardQueueStops : Obligations.OnlyFullForwardQueueStops := by
  intro c s
  rcases exec_stops c s with ⟨t, ht⟩ | ⟨hfault, hcount⟩
  · rw [ht]
    exact ⟨fun _ h => (nomatch h), fun _ h => (nomatch h), fun _ => ⟨t, rfl⟩⟩
  · rw [hfault]
    refine ⟨fun _ h => (nomatch h), fun f h => ?_, fun h => by omega⟩
    cases h
    exact ⟨rfl, hcount⟩

end Sys2Proof.Machine
end


section
/-! PROOF. Power-on and the restarts (R178, R183, R184), the unit manager's own commands (R180, R182, R188), and commands taken by
their address (R167). -/

namespace Sys2Proof.Machine

/-! ### Power-on and the restarts (O4, O5, O6) -/

/-- Settles O4: POWER_ON's state read field by field; the address by the strap values. -/
theorem powerOnResetsEveryBlock : Obligations.PowerOnResetsEveryBlock := by
  intro straps s
  refine ⟨_, rfl, rfl, rfl, fun hlow hhigh => ?_, fun hnone => ?_, rfl, rfl, rfl, rfl, rfl, rfl, rfl, rfl, rfl, rfl, rfl, rfl⟩
  · have h0 : straps ≠ 0#6 := fun h => by simp [h] at hlow
    have h63 : straps ≠ 63#6 := fun h => by simp [h] at hhigh
    exact ⟨if_neg h63, if_neg (not_or.2 ⟨h0, h63⟩)⟩
  · have hstraps : straps = 0#6 ∨ straps = 63#6 := hnone.imp BitVec.eq_of_toNat_eq BitVec.eq_of_toNat_eq
    rcases hstraps with rfl | rfl <;> exact ⟨rfl, rfl⟩

/-- FEED OUT at a restart: a reply being sent holds no place after it, and all else goes on (R177). -/
theorem FeedOut.afterRestart_other {out : FeedOut} (h : ∀ reply unsent place, out ≠ .reply reply unsent place) :
    out.afterRestart = out := by
  cases out with
  | reply reply unsent place => exact absurd rfl (h reply unsent place)
  | _ => rfl

/-- What both restarts leave, read off RESTART KEEP. -/
theorem State.restartKeep_leaves (s : State) : restartLeaves s s.restartKeep .keep := by
  refine ⟨rfl, rfl, rfl, rfl, rfl, fun reply unsent place h => ?_, FeedOut.afterRestart_other, rfl, rfl, rfl, rfl, rfl, rfl, rfl,
    rfl, rfl, rfl, rfl, rfl, rfl, rfl, rfl, rfl, rfl, rfl, rfl, rfl, fun hattn hbusy => ?_⟩
  · show s.feed.out.afterRestart = _
    rw [h]; rfl
  · show (if _ then _ else none) = none
    simp [hattn, hbusy]

theorem State.restartClear_leaves (s : State) : restartLeaves s s.restartClear .clear := by
  refine ⟨rfl, rfl, rfl, rfl, rfl, fun reply unsent place h => ?_, FeedOut.afterRestart_other, rfl, rfl, rfl, rfl, rfl, rfl, rfl,
    rfl, rfl, rfl, rfl, rfl, rfl, rfl, rfl, rfl, rfl, rfl, rfl, rfl, fun hattn hbusy => ?_⟩
  · show s.feed.out.afterRestart = _
    rw [h]; rfl
  · show (if _ then _ else none) = none
    simp [hattn, hbusy]

/-- A signal held at a restart sets the stuck deadline (R136). -/
theorem Desk.restarted_stuckAt {d : Desk} (stuck : Reading) (stations : List Station) (h : d.attn = true ∨ d.busy = true) :
    (d.restarted stuck stations).stuckAt = some stuck :=
  if_pos (Bool.or_eq_true _ _ ▸ h)

/-- Settles O5: RESTART KEEP's state; the monitors by `State.record?_keptRestart`, the stations one by one. -/
theorem restartKeepKeepsTables : Obligations.RestartKeepKeepsTables := by
  intro s
  refine ⟨s.restartKeep, answered_restartKeep.answers.row fun _ => rfl, s.restartKeep_leaves, rfl, rfl, rfl, rfl, rfl, rfl, rfl,
    rfl, Desk.restarted_stuckAt _ _, fun r h => ?_, fun r q h => ?_, List.length_map _, fun n st h => ?_⟩
  · rw [State.record?_keptRestart, h]; rfl
  · rw [State.record?_keptRestart, h]
    simp only [Option.map_some, QuoteRecord.recentred, Monitor.calmed]
    cases q.last <;> cases q.prevClose <;> rfl
  · show (s.desk.stations.map _)[n]? = _
    rw [List.getElem?_map, h]; rfl

/-- Settles O6: RESTART CLEAR's state, its stations one by one. -/
theorem restartClearEmptiesTables : Obligations.RestartClearEmptiesTables := by
  intro s
  refine ⟨s.restartClear, answered_restartClear.answers.row fun _ => rfl, s.restartClear_leaves, rfl, rfl, rfl, rfl, rfl, rfl, rfl,
    rfl, rfl, Desk.restarted_stuckAt _ _, List.length_map _, fun n st h => ?_⟩
  show (s.desk.stations.map _)[n]? = _
  rw [List.getElem?_map, h]; rfl

/-! ### The unit manager's own commands (O7) -/

/-- Numbers outside Table 9-1 name no command. -/
theorem parseCommand_unnumbered {number : Nat} (body : List Byte) (h : number = 0 ∨ 23 < number) :
    parseCommand number body = none := by
  rcases h with rfl | habove
  · rfl
  · obtain ⟨k, rfl⟩ := Nat.exists_eq_add_of_le' habove
    rfl

/-- A command that names none is dealt with by its address like every other (R167, R180). -/
theorem exec_unknownCommand {number : Nat} {body : List Byte} (h : parseCommand number body = none) (addr : Nat) (s : State) :
    exec (.unknownCommand addr number body) s = .next (s.passCommand addr (dealUnknown number)) :=
  if_pos (by rw [h]; rfl)

/-- Settles O7: each command by its answer, and an unknown one by the table of commands. -/
theorem managerCommandsAct : Obligations.ManagerCommandsAct := by
  refine ⟨fun s => ⟨fun h => (answered_ackHeld h).answers.row fun _ => rfl, fun h =>
    (answered_ackRunning h).answers.row fun _ => rfl⟩, fun number body s =>
    ⟨answered_clearCounters.answers.row fun _ => rfl, fun h => ?_⟩⟩
  have hnone : parseCommand number body = none := by
    rw [← or_assoc] at h
    exact h.elim (parseCommand_unnumbered body) id
  exact (answered_unknown number).answers.row fun addr => exec_unknownCommand hnone addr s

/-! ### Commands by their address (O8) -/

/-- Settles O8: a command row passes its command by its address, and neither case here reaches the unit manager. -/
theorem commandsAreTakenByAddress : Obligations.CommandsAreTakenByAddress := by
  refine fun addr c s => ⟨fun h63 hother hassign => ?_, fun haddr hlow hhigh hfull => ?_⟩
  · rw [exec_commandRow addr c s hassign]
    have hown : ¬ s.ownAddress addr = true := by
      simp only [State.ownAddress, Bool.and_eq_true, decide_eq_true_eq]
      omega
    rw [State.passCommand, if_neg h63, if_neg hown]
  · rw [exec_commandRow addr c s fun h => by omega]
    have hown : s.ownAddress addr = true := by
      simp only [State.ownAddress, Bool.and_eq_true, decide_eq_true_eq]
      exact ⟨⟨haddr, hlow⟩, hhigh⟩
    have hplace : ¬ s.feed.placeFree = true := by
      simp only [Repeater.placeFree, decide_eq_true_eq]
      omega
    rw [State.passCommand, if_neg (by omega), if_pos hown, if_neg hplace]
    rfl

end Sys2Proof.Machine
end


section
/-! PROOF. Directory commands: their acceptance (R4 to R6), their refusals (R4, R13 to R15), and the examination of LOAD SYMBOL
(R10). -/

namespace Sys2Proof.Machine

/-! ### A directory command and its checks -/

/-- The checks of a directory command, by the command: a refusal's status, or the work it asks for. -/
def State.examined (s : State) : Command → Status ⊕ DirWork
  | .loadSymbol a => s.checkLoad a
  | .addAlias code record => s.checkAddAlias code record
  | .dropAlias code => s.checkDropAlias code
  | .dropSymbol code => s.checkDropSymbol code
  | _ => .inl .badArgument

/-- Every directory command is dealt with by examining it (R4). -/
theorem exec_directoryCommand {c : Command} (h : isDirectoryCommand c = true) (addr : Nat) (s : State) :
    exec (commandRow addr c) s =
      .next (s.passCommand addr fun route t => t.examineOperation c.number route (t.examined c)) := by
  cases c with
  | loadSymbol a => rfl
  | addAlias code record => rfl
  | dropAlias code => rfl
  | dropSymbol code => rfl
  | _ => exact absurd h Bool.false_ne_true

/-- Reserving a reply place changes nothing that the checks read. -/
theorem State.examined_reservePlace (s : State) (c : Command) : s.reservePlace.examined c = s.examined c := by
  cases c <;> rfl

/-- A command that its checks refuse is answered with their status (R4, R180). -/
theorem exec_directoryRefused {addr : Nat} {c : Command} {s : State} {status : Status} (hc : isDirectoryCommand c = true)
    (hidle : s.directory.operation = .idle) (hwalk : s.store.walk = none) (h : s.examined c = .inl status)
    (htakes : s.takes addr) : exec (commandRow addr c) s = .next (s.replied c.number status .empty) := by
  have hfree : ¬ s.reservePlace.operationBusy := State.not_operationBusy_iff.2 ⟨hidle, hwalk⟩
  rw [exec_directoryCommand hc, State.passCommand_taken htakes, State.examined_reservePlace, h,
    State.examineOperation_refused hfree, State.refuse_place]

/-! ### Acceptance (O9) -/

/-- What `accepts` names is what the checks find. -/
theorem State.examined_of_accepts {s : State} {c : Command} {work : DirWork} (h : s.accepts c work) :
    isDirectoryCommand c = true ∧ s.examined c = .inr work := by
  unfold State.accepts at h
  split at h
  · next a b =>
    obtain ⟨hsound, hroom, hrecord, hcode, rfl⟩ := h
    refine ⟨rfl, ?_⟩
    simp [State.examined, State.checkLoad, hsound, hrecord, hcode, hroom]
  · next code r code' r' =>
    obtain ⟨hsound, hrange, hrecord, hroom, hcode, rfl, rfl⟩ := h
    refine ⟨rfl, ?_⟩
    have hlow : ¬ 512 ≤ r' := not_le.2 hrange
    have hfew : ¬ 64 ≤ countEntries s.directory.entries .aliased := not_le.2 hroom
    simp [State.examined, State.checkAddAlias, hsound, hlow, hrecord, hcode, hfew]
  · next code code' =>
    obtain ⟨hsound, ⟨e, he, hkind⟩, rfl⟩ := h
    refine ⟨rfl, ?_⟩
    simp [State.examined, State.checkDropAlias, hsound, he, hkind]
  · next code code' r =>
    obtain ⟨hsound, ⟨e, he, hkind, rfl⟩, rfl⟩ := h
    refine ⟨rfl, ?_⟩
    simp [State.examined, State.checkDropSymbol, hsound, he, hkind]
  · exact h.elim

/-- Settles O9: what the checks accept is examined, found free, and accepted with the place its route has. -/
theorem directoryCommandIsAccepted : Obligations.DirectoryCommandIsAccepted := by
  intro addr c work s haccepts hidle hwalk
  obtain ⟨hc, hexamined⟩ := State.examined_of_accepts haccepts
  have hfree : ¬ s.operationBusy := State.not_operationBusy_iff.2 ⟨hidle, hwalk⟩
  have hplace : ¬ s.reservePlace.operationBusy := hfree
  refine ⟨fun htakes => ?_, ?_⟩
  · rw [exec_directoryCommand hc, State.passCommand_taken htakes, State.examined_reservePlace, hexamined,
      State.examineOperation_accepted hplace, State.acceptOperation_eq (s := s.reservePlace) work .place hwalk]
    rfl
  · rw [exec_directoryCommand hc, State.passCommand_broadcast, hexamined, State.examineOperation_accepted hfree,
      State.acceptOperation_eq work .broadcast hwalk]
    rfl

/-! ### Refusals (O10) -/

/-- A directory command that comes while one is held or a walk is in flight is BUSY, and a broadcast one leaves no trace (R4). -/
theorem exec_directoryBusy {c : Command} {s : State} (hc : isDirectoryCommand c = true)
    (h : s.directory.operation ≠ .idle ∨ s.store.walk ≠ none) (addr : Nat) :
    (s.takes addr → exec (commandRow addr c) s = .next (s.replied c.number .busy .empty)) ∧
      exec (commandRow 63 c) s = .next s := by
  have hbusy : s.operationBusy := by
    by_contra hfree
    obtain ⟨hidle, hwalk⟩ := State.not_operationBusy_iff.1 hfree
    exact h.elim (· hidle) (· hwalk)
  have hplace : s.reservePlace.operationBusy := hbusy
  refine ⟨fun htakes => ?_, ?_⟩
  · rw [exec_directoryCommand hc, State.passCommand_taken htakes, State.examineOperation_busy hplace, State.refuse_place]
  · rw [exec_directoryCommand hc, State.passCommand_broadcast, State.examineOperation_busy hbusy, State.refuse_broadcast]

/-- Settles O10: BUSY by `exec_directoryBusy`; every other refusal is the check that its own hypotheses leave. -/
theorem directoryCommandsAreRefused : Obligations.DirectoryCommandsAreRefused := by
  refine ⟨fun addr c s hc h => exec_directoryBusy hc h addr, fun addr code record s htakes hidle hwalk => ?_⟩
  have refuse {c : Command} (hc : isDirectoryCommand c = true) {status : Status} (h : s.examined c = .inl status) :
      exec (commandRow addr c) s = .next (s.replied c.number status .empty) :=
    exec_directoryRefused hc hidle hwalk h htakes
  have sound (hcode : wellFormedCode code = true) (hrange : record < 512) :
      ¬ (wellFormedCode code = false ∨ 512 ≤ record) := not_or.2 ⟨by rw [hcode]; decide, not_le.2 hrange⟩
  have occupied (hrecord : s.record? record ≠ none) : ¬ (s.record? record).isNone = true :=
    fun h => hrecord (Option.isNone_iff_eq_none.1 h)
  refine ⟨fun hbad => refuse (c := .addAlias code record) rfl ?_,
    fun hcode hrange hnone => refuse (c := .addAlias code record) rfl ?_,
    fun hcode hrange hrecord hfull => refuse (c := .addAlias code record) rfl ?_,
    fun hcode hrange hrecord hroom htaken => refuse (c := .addAlias code record) rfl ?_,
    fun hcode => ⟨?_, ?_⟩, fun hcode hkind => ?_, fun hcode hkind => ?_⟩
  · rw [State.examined, State.checkAddAlias, if_pos hbad]
  · rw [State.examined, State.checkAddAlias, if_neg (sound hcode hrange), if_pos (Option.isNone_iff_eq_none.2 hnone)]
  · rw [State.examined, State.checkAddAlias, if_neg (sound hcode hrange), if_neg (occupied hrecord), if_pos hfull]
  · rw [State.examined, State.checkAddAlias, if_neg (sound hcode hrange), if_neg (occupied hrecord), if_neg (not_le.2 hroom),
      if_pos (Option.isSome_iff_ne_none.2 htaken)]
  · exact refuse (c := .dropAlias code) rfl (if_pos hcode)
  · exact refuse (c := .dropSymbol code) rfl (if_pos hcode)
  · refine refuse (c := .dropAlias code) rfl ?_
    simp only [State.examined, State.checkDropAlias, hcode]
    cases hfound : findEntry s.directory.entries code with
    | none => rfl
    | some e => simp [hkind e hfound]
  · refine refuse (c := .dropSymbol code) rfl ?_
    simp only [State.examined, State.checkDropSymbol, hcode]
    cases hfound : findEntry s.directory.entries code with
    | none => rfl
    | some e => simp [hkind e hfound]

/-! ### The examination of LOAD SYMBOL (O11) -/

/-- R10's structural check of a message's operands, as its rule lists them. -/
theorem loadArgsSound_iff {a : LoadArgs} (h : a.cells.length ≤ 2) :
    loadArgsSound a = false ↔
      (wellFormedCode a.code = false ∨ 512 ≤ a.record ∨ (a.grid ≠ 8 ∧ a.grid ≠ 16 ∧ a.grid ≠ 32 ∧ a.grid ≠ 64) ∨
        (∃ c ∈ a.cells, 3 < c.1 ∨ 63 < c.2) ∨ ¬ a.cells.Nodup ∨
        (∃ p, a.prevClose = some p ∧ (p = 0 ∨ 1048575 < p))) := by
  have hprice : isPriceOption a.prevClose = false ↔ ∃ p, a.prevClose = some p ∧ (p = 0 ∨ 1048575 < p) := by
    cases a.prevClose with
    | none => simp [isPriceOption]
    | some p =>
      simp only [isPriceOption, isPrice, Option.some.injEq, exists_eq_left', Bool.and_eq_false_iff, decide_eq_false_iff_not]
      omega
  rw [← hprice]
  simp only [loadArgsSound, isGrid, Bool.and_eq_false_iff, Bool.or_eq_false_iff, decide_eq_false_iff_not, List.all_eq_false,
    Bool.not_eq_true, Bool.and_eq_false_iff, not_lt, not_le, h, not_true_eq_false, or_false, ne_eq, or_assoc, and_assoc]

/-- The settings as LOAD SYMBOL stores them, for a T of two characters (R10). -/
theorem clampSettings_eq {m : MonSettings} (h : m.t ≤ 65535) :
    (clampSettings m).t = m.t ∧ (clampSettings m).h = (if m.t = 0 then 0 else min m.h (m.t - 1)) ∧
      (clampSettings m).n = max 1 (min 15 m.n) ∧ (clampSettings m).k = min 7 m.k := by
  simp only [clampSettings, clamp]
  refine ⟨by omega, ?_, by omega, trivial⟩
  split <;> omega

/-- Settles O11: the checks in their order, and acceptance with the settings clamped. -/
theorem loadSymbolIsExaminedInOrder : Obligations.LoadSymbolIsExaminedInOrder := by
  intro addr a s htakes hidle hwalk hcells ht bad full taken
  have refuse {status : Status} (h : s.checkLoad a = .inl status) :
      exec (.loadSymbol addr a) s = .next (s.replied 4 status .empty) :=
    exec_directoryRefused (c := .loadSymbol a) rfl hidle hwalk h htakes
  have hsound : loadArgsSound a = false ↔ bad := loadArgsSound_iff hcells
  have htaken : ((s.record? a.record).isSome = true ∨ (lookupCode s.directory.entries a.code).isSome = true) ↔ taken := by
    simp only [Option.isSome_iff_ne_none]
    exact Iff.rfl
  refine ⟨fun hbad => refuse ?_, fun hbad hfull => refuse ?_, fun hbad hfull hin => refuse ?_, fun hbad hfull hin => ?_⟩
  · rw [State.checkLoad, if_pos (hsound.2 hbad)]
  · rw [State.checkLoad, if_neg (hbad <| hsound.1 ·), if_pos hfull]
  · rw [State.checkLoad, if_neg (hbad <| hsound.1 ·), if_neg hfull, if_pos (htaken.2 hin)]
  · obtain ⟨hrecord, hcode⟩ := not_or.1 hin
    have haccepts : s.accepts (.loadSymbol a) (.load { a with settings := clampSettings a.settings }) :=
      ⟨Bool.eq_true_of_not_eq_false (hbad <| hsound.1 ·), not_le.1 hfull, not_not.1 hrecord, not_not.1 hcode, rfl⟩
    have haccepted := (directoryCommandIsAccepted addr _ _ s haccepts hidle hwalk).1 htakes
    refine ⟨_, { a with settings := clampSettings a.settings }, haccepted, ?_, rfl, clampSettings_eq (m := a.settings) ht⟩
    by_cases hqueue : s.intake.queue = []
    · exact Or.inr (if_pos hqueue)
    · exact Or.inl (if_neg hqueue)

end Sys2Proof.Machine
end


section
/-! PROOF. The completions of the directory operations (R7, R11 to R18) and SET CELL (R98). -/

namespace Sys2Proof.Machine

/-! ### A completion and the request held for a lookup (R7, R128) -/

/-- With no request held, or with a walk in flight, a completion is DONE placed and IDLE again. -/
theorem State.completeOperation_unheld {s : State} (h : s.noRequestHeld ∨ s.store.walk ≠ none) (held : Bool) (echo : Nat)
    (body : ReplyBody) : s.completeOperation held echo body = s.operationDone held echo body := by
  rw [State.completeOperation_eq]
  refine State.serveHeld_none (h.imp id fun hwalk => ?_)
  exact Option.isSome_iff_ne_none.2 hwalk

/-- With no walk in flight, the completion of an operation lets the held request be served. -/
theorem State.completeOperation_serves {s : State} {u : Transaction} {request : LookupRequest} (hwalk : s.store.walk = none)
    (hu : s.desk.transaction = some u) (hrequest : u.held = some request) (held : Bool) (echo : Nat) (body : ReplyBody) :
    s.completeOperation held echo body = (s.operationDone held echo body).serveLookup u request := by
  rw [State.completeOperation_eq]
  refine State.serveHeld_some hu hrequest ?_
  show (false || s.store.walk.isSome) = false
  rw [hwalk]; rfl

/-! ### LOAD SYMBOL completes (O12) -/

/-- Settles O12: the tables by `State.loadRecord_spec`, everything else by `State.loadRecord_frame`. -/
theorem loadSymbolCompletes : Obligations.LoadSymbolCompletes := by
  intro a held s hrefs hoperation
  have hexec : exec .loadSymbolCompletion s =
      .next ((s.loadRecord a).completeOperation held 4 (.codeRecord a.code a.record)) := by
    simp only [exec, execLoadSymbolCompletion, hoperation]
  obtain ⟨hread, hmap⟩ := State.loadRecord_spec a ((State.referencesAgree_iff s).1 hrefs).1.ownsCells
  have hframe := State.loadRecord_frame s a
  generalize s.loadRecord a = t at *
  have hleaves : (t.operationDone held 4 (.codeRecord a.code a.record)) =
      State.operationDone { s with directory := t.directory, store := t.store, board := t.board } held 4
        (.codeRecord a.code a.record) := by rw [hframe]
  have hwalk : t.store.walk = s.store.walk := by rw [hframe]
  have hdesk : t.desk = s.desk := by rw [hframe]
  intro cells leaves
  have hleft : leaves (t.operationDone held 4 (.codeRecord a.code a.record)) := by
    refine ⟨?_, by rw [hframe]; rfl, by rw [hframe]; rfl, (hread a.record).trans (if_pos rfl), fun r hr =>
      (hread r).trans (if_neg hr), by rw [hframe]; rfl, hmap⟩
    rw [hframe]; rfl
  refine ⟨fun h => ⟨_, ?_, hleft⟩, fun hnone u request hu hrequest => ⟨_, ?_, hleft⟩⟩
  · rw [hexec, State.completeOperation_unheld]
    rw [State.noRequestHeld, hwalk, hdesk]
    exact h
  · rw [hexec, State.completeOperation_serves (hwalk.trans hnone) (by rw [hdesk]; exact hu) hrequest]

/-! ### ADD ALIAS and DROP ALIAS complete (O13) -/

/-- Settles O13: each completion changes the entries alone, so a request held and a walk in flight stand as they did. -/
theorem aliasOperationsComplete : Obligations.AliasOperationsComplete := by
  intro code r held s more fewer added dropped
  have hadd (h : s.directory.operation = .working (.addAlias code r) held) :
      exec .addAliasCompletion s = .next ((s.setEntries more).completeOperation held 5 (.codeRecord code r)) := by
    simp only [exec, execAddAliasCompletion, h]
    rfl
  have hdrop (h : s.directory.operation = .working (.dropAlias code) held) :
      exec .dropAliasCompletion s = .next ((s.setEntries fewer).completeOperation held 6 (.code code)) := by
    simp only [exec, execDropAliasCompletion, h]
    rfl
  refine ⟨fun hworking hnone => ?_, fun hworking hnone => ?_, fun hwalk u request hu hrequest =>
    ⟨fun hworking => ?_, fun hworking => ?_⟩⟩
  · rw [hadd hworking, State.completeOperation_unheld (s := s.setEntries more) hnone]
    rfl
  · rw [hdrop hworking, State.completeOperation_unheld (s := s.setEntries fewer) hnone]
    rfl
  · rw [hadd hworking, State.completeOperation_serves (s := s.setEntries more) hwalk hu hrequest]
    rfl
  · rw [hdrop hworking, State.completeOperation_serves (s := s.setEntries fewer) hwalk hu hrequest]
    rfl

/-! ### DROP SYMBOL completes (O14) -/

theorem bne_eq_decide_ne (a b : Nat) : (a != b) = decide (a ≠ b) := by rw [bne, beq_eq_decide, decide_not]

/-- What a freed record leaves of each kind of page that may name it (R17). -/
theorem Page.withoutRecord_eq (r record lines : Nat) (left sent : List Nat) :
    Page.withoutRecord r (.quote record left) = .quote record (if record = r then [] else left) ∧
      Page.withoutRecord r (.recent record left) = .recent record (if record = r then [] else left) ∧
      Page.withoutRecord r (.watch left) = .watch (left.filter fun x => x ≠ r) ∧
      Page.withoutRecord r (.changes sent lines) = .changes (sent.filter fun x => x ≠ r) lines := by
  simp only [Page.withoutRecord, Page.withoutEntries, ← decide_not, ne_eq]
  refine ⟨?_, ?_, trivial, trivial⟩ <;> split <;> rfl

/-- A freed record leaves every list and every page (R17). -/
theorem Desk.freeRecord_eq (d : Desk) (r : Nat) :
    d.freeRecord r = { d.mapPages (fun _ => true) (Page.withoutRecord r) with
      stations := d.stations.map fun st => { st with
        watch := st.watch.filter fun e => e.record ≠ r
        alerts := st.alerts.filter fun a => a.record ≠ r } } := by
  have hentry : Station.dropEntry r = fun st => { st with
      watch := st.watch.filter fun e => e.record ≠ r
      alerts := st.alerts.filter fun a => a.record ≠ r } := by
    funext st
    simp only [Station.dropEntry, bne_eq_decide_ne]
  rw [Desk.freeRecord, hentry]
  rfl

/-- Settles O14: the record's fields by `State.dropRecord_frame` and the two readings, the desk by its own update. -/
theorem dropSymbolCompletes : Obligations.DropSymbolCompletes := by
  refine ⟨fun code r q held s hoperation hq => ?_, Page.withoutRecord_eq⟩
  have hexec : exec .dropSymbolCompletion s = .next ((s.dropRecord r).completeOperation held 7 (.codeRecord code r)) := by
    simp only [exec, execDropSymbolCompletion, hoperation]
  obtain ⟨hmap, -⟩ := State.dropRecord_cellMap s r
  have hread := State.record?_dropRecord s r
  have hframe := State.dropRecord_frame s r
  rw [hq] at hmap hframe
  generalize s.dropRecord r = t at *
  have hwalk : t.store.walk = s.store.walk := by rw [hframe]
  have hdesk : t.desk = s.desk.freeRecord r := by rw [hframe]
  intro leaves
  have hleft : leaves (t.operationDone held 7 (.codeRecord code r)) := by
    refine ⟨?_, ?_, by rw [hframe]; rfl, (hread r).trans (if_pos rfl), fun r' hr => (hread r').trans (if_neg hr), ?_, hmap, ?_⟩
    · rw [hframe]; rfl
    · rw [hframe]
      exact List.filter_congr fun e _ => bne_eq_decide_ne e.record r
    · rw [hframe]; rfl
    · rw [hframe]
      exact Desk.freeRecord_eq s.desk r
  refine ⟨fun h => ⟨_, ?_, hleft⟩, fun hnone u request hu hrequest => ⟨_, ?_, hleft⟩⟩
  · rw [hexec, State.completeOperation_unheld (h.imp (fun hheld u hu => ?_) fun hsome => hwalk ▸ hsome)]
    rw [hdesk] at hu
    obtain ⟨u', hu', rfl⟩ := Option.map_eq_some_iff.1 hu
    exact hheld u' hu'
  · refine hexec.trans (congrArg _ (State.completeOperation_serves (hwalk.trans hnone) ?_ ?_ held 7 _))
    · rw [hdesk]
      show s.desk.transaction.map _ = _
      rw [hu]; rfl
    · exact hrequest

/-! ### SET CELL (O15) -/

/-- Settles O15: its refusals in order, and what naming a cell leaves by `State.assignCell_spec`. -/
theorem setCellAssignsCell : Obligations.SetCellAssignsCell := by
  intro panel cell record s hrefs row n listed
  have refused {status : Status} (h : s.setCellRefusal panel cell record = some status) :
      s.answersAs row 8 status .empty s := (answered_cellRefused h).answers.row fun _ => rfl
  have sound (hpanel : panel ≤ 3) (hcell : cell ≤ 63) : ¬ (3 < panel ∨ 63 < cell) := by omega
  refine ⟨fun hbad => refused ?_, fun hpanel hcell r hr hrange hnone => refused ?_,
    fun hpanel hcell r q hr hq htwo hnot => refused ?_, fun hpanel hcell hroom => ?_⟩
  · by_cases hrange : 3 < panel ∨ 63 < cell
    · simp only [State.setCellRefusal, if_pos hrange]
    · obtain ⟨r, rfl, hr⟩ := (hbad.resolve_left (hrange <| Or.inl ·)).resolve_left (hrange <| Or.inr ·)
      simp only [State.setCellRefusal, if_neg hrange, if_pos hr]
  · subst hr
    simp only [State.setCellRefusal, if_neg (sound hpanel hcell), if_neg (not_le.2 hrange), hnone]
  · subst hr
    have hrange := (((State.referencesAgree_iff s).1 hrefs).1.occupied r q hq).1
    have hfull : 2 ≤ q.cells.length ∧ cellNumber panel cell ∉ q.cells := ⟨htwo.ge, hnot⟩
    simp only [State.setCellRefusal, if_neg (sound hpanel hcell), if_neg (not_le.2 hrange), hq, if_pos hfull]
  · obtain ⟨htables, -⟩ := (State.referencesAgree_iff s).1 hrefs
    have hnone : s.setCellRefusal panel cell record = none := by
      cases hrecord : record with
      | none => simp only [State.setCellRefusal, if_neg (sound hpanel hcell)]
      | some r =>
        obtain ⟨q, hq, hfree⟩ := hroom r hrecord
        have hrange := (htables.occupied r q hq).1
        have hspace : ¬ (2 ≤ q.cells.length ∧ cellNumber panel cell ∉ q.cells) :=
          fun h => hfree.elim (fun hlen => by omega) h.2
        simp only [State.setCellRefusal, if_neg (sound hpanel hcell), if_neg (not_le.2 hrange), hq, if_neg hspace]
    obtain ⟨hread, hmap⟩ := State.assignCell_spec (cell := n) (record := record) htables.ownsCells
      (fun r hr => by obtain ⟨q, hq, -⟩ := hroom r hr; rw [hq]; rfl) fun r hr => (htables.cell n r hr).2
    have hanswered := (answered_cellAssigned hnone).answers.row (row := row) fun _ => rfl
    have hbody : tableGet ((s.assignCell n record).markCells [n]).board.cellMap n = record := (hmap n).trans (if_pos rfl)
    rw [show cellNumber panel cell = n from rfl, hbody] at hanswered
    refine ⟨_, hanswered, ?_, ?_, ?_, hmap, hread⟩
    · rw [State.assignCell_frame]; rfl
    · rw [State.assignCell_frame]; rfl
    · rw [State.assignCell_frame]; rfl

end Sys2Proof.Machine
end


section
/-! PROOF. SET MONITOR (R70), LOAD WATCH and CLEAR WATCH (R151), SET STATION (R152), SET PARAMETER (R186), and the board's commands
and sweep (R109, R111, R114). -/

namespace Sys2Proof.Machine

/-! ### SET MONITOR (O16) -/

/-- Settles O16: the three answers of SET MONITOR. -/
theorem setMonitorStoresSettings : Obligations.SetMonitorStoresSettings := by
  intro r m s row
  refine ⟨fun h => (answered_monitorRange h).answers.row fun _ => rfl, fun hrange hnone =>
    (answered_monitorUnoccupied (not_le.2 hrange) hnone).answers.row fun _ => rfl, ?_⟩
  intro hrange q hq stored t
  have hanswered := (answered_monitorStored (m := m) (not_le.2 hrange) hq).answers.row (row := row) fun _ => rfl
  have hboard : (if q.monitor.moving then s.board.mark q.cells else s.board) =
      if q.monitor.state = .active ∨ q.monitor.state = .releasing then s.board.mark q.cells else s.board :=
    if_congr (Monitor.moving_iff q.monitor) rfl rfl
  rw [State.monitorSet, hboard] at hanswered
  exact hanswered

/-! ### LOAD WATCH and CLEAR WATCH (O17) -/

/-- R151's structural check of LOAD WATCH, as its rule lists it. -/
theorem watchArgsSound_false {n : Nat} {entries : List WatchArgs}
    (h : 15 < n ∨ 12 < entries.length ∨ (∃ w ∈ entries, 512 ≤ w.record) ∨ ¬ (entries.map WatchArgs.record).Nodup ∨
      (∃ w ∈ entries, ∃ p, (w.above = some p ∨ w.below = some p) ∧ (p = 0 ∨ 1048575 < p))) :
    watchArgsSound n entries = false := by
  have hprice (p : Nat) (hp : p = 0 ∨ 1048575 < p) : isPrice p = false := by
    simp only [isPrice, Bool.and_eq_false_iff, decide_eq_false_iff_not]
    omega
  rw [← Bool.not_eq_true]
  intro hsound
  simp only [watchArgsSound, Bool.and_eq_true, decide_eq_true_eq, List.all_eq_true] at hsound
  obtain ⟨⟨⟨hstation, hlength⟩, hentries⟩, hnodup⟩ := hsound
  rcases h with h | h | ⟨w, hw, h⟩ | h | ⟨w, hw, p, hwp, hp⟩
  · omega
  · omega
  · have := (hentries w hw).1.1
    omega
  · exact h hnodup
  · obtain ⟨⟨-, habove⟩, hbelow⟩ := hentries w hw
    rcases hwp with heq | heq
    · rw [heq, isPriceOption, hprice p hp] at habove
      cases habove
    · rw [heq, isPriceOption, hprice p hp] at hbelow
      cases hbelow

/-- A station that stands has its record changed in its place. -/
theorem Desk.modifyStation_eq {d : Desk} {n : Nat} {st : Station} (f : Station → Station) (h : d.stations[n]? = some st) :
    d.modifyStation n f = { d with stations := d.stations.set n (f st) } := by
  have hset : d.stations.modify n f = d.stations.set n (f st) := by rw [List.modify_eq_set_getElem?]; simp [h]
  rw [Desk.modifyStation, hset]

/-- Settles O17: the refusals, and a list replaced in the station that stands. -/
theorem watchListIsReplaced : Obligations.WatchListIsReplaced := by
  refine ⟨?_, fun _ _ _ _ _ => ⟨rfl, rfl, rfl, rfl⟩⟩
  intro n entries s load clear edited
  have hany (P : WatchArgs → Prop) [DecidablePred P] : entries.any (fun w => decide (P w)) = true ↔ ∃ w ∈ entries, P w := by
    simp
  refine ⟨fun h => (answered_watchRefused (watchArgsSound_false h)).answers.row fun _ => rfl, fun hsound ⟨w, hw, hnone⟩ => ?_,
    fun hsound hall st hst => ?_, fun h => (answered_clearRefused h).answers.row fun _ => rfl, fun hn st hst => ?_⟩
  · have hunoccupied : entries.any (fun w => (s.record? w.record).isNone) = true :=
      List.any_eq_true.2 ⟨w, hw, by rw [hnone]; rfl⟩
    exact (answered_watchUnoccupied hsound hunoccupied).answers.row fun _ => rfl
  · have hoccupied : entries.any (fun w => (s.record? w.record).isNone) = false := by
      rw [List.any_eq_false]
      exact fun w hw h => hall w hw (Option.isNone_iff_eq_none.1 h)
    have hanswered := (answered_watchLoaded hsound hoccupied).answers.row (row := load) fun _ => rfl
    rw [Desk.loadWatch, Desk.modifyStation_eq _ hst] at hanswered
    exact hanswered
  · have hanswered := (answered_watchCleared (s := s) (not_lt.2 hn)).answers.row (row := clear) fun _ => rfl
    rw [Desk.loadWatch, Desk.modifyStation_eq _ hst] at hanswered
    have hlist : Station.loadWatch [] st = { st with watch := [], alerts := [] } := by
      simp only [Station.loadWatch, List.map_nil, List.any_nil, List.filter_false]
    rw [hlist] at hanswered
    exact hanswered

/-! ### SET STATION (O18) -/

/-- Table 7-4, branch by branch of the stored mode. -/
theorem Station.setMode_stored (now : Reading) (m : StationMode) (interval : Nat) (st : Station) :
    st.modeStored now m (clamp 1 60 interval) (st.setMode now m interval) := by
  cases m with
  | stream =>
    by_cases hstream : st.mode = .stream
    · simp only [Station.modeStored, Station.setMode, hstream, if_true]
      cases st.streamAt <;> simp
    · by_cases hdetached : st.presence = .detached <;>
        simp [Station.modeStored, Station.setMode, hstream, hdetached]
  | event => by_cases hstream : st.mode = .stream <;> simp [Station.modeStored, Station.setMode, hstream]
  | quiet => by_cases hstream : st.mode = .stream <;> simp [Station.modeStored, Station.setMode, hstream]

/-- Settles O18: a mode below 3 names one of the three, and Table 7-4 by `Station.setMode_stored`. -/
theorem setStationChangesMode : Obligations.SetStationChangesMode := by
  intro n mode interval s row seconds
  refine ⟨fun h => ?_, fun hn hmode st hst => ?_⟩
  · have hrefused : modeOf mode = none ∨ 15 < n := by
      refine h.symm.imp (fun hmode => ?_) id
      obtain ⟨k, rfl⟩ := Nat.exists_eq_add_of_le' hmode
      rfl
    exact (answered_modeRefused hrefused).answers.row fun _ => rfl
  · have stored {m : StationMode} (hm : modeOf mode = some m) :
        s.answersAs row 12 .done (.modeStored m seconds) (s.withStation n (st.setMode s.clock m interval)) := by
      have hanswered := (answered_modeStored (s := s) (interval := interval) hm (not_lt.2 hn)).answers.row (row := row) fun _ => rfl
      rw [Desk.modifyStation_eq _ hst] at hanswered
      exact hanswered
    have hnamed : ∃ m, modeOf mode = some m ∧ (mode = 0 → m = .event) ∧ (mode = 1 → m = .stream) ∧ (mode = 2 → m = .quiet) := by
      interval_cases mode <;> exact ⟨_, rfl, by simp⟩
    obtain ⟨m, hm, h0, h1, h2⟩ := hnamed
    exact ⟨m, _, h0, h1, h2, st.setMode_stored s.clock m interval, stored hm⟩

/-! ### SET PARAMETER (O19) -/

/-- An identifier outside Table 9-3 names no parameter (R186). -/
theorem Params.store_unnamed (p : Params) {ident : Nat} (v : Nat) (h : ident = 0 ∨ 20 < ident) : p.store ident v = none := by
  rcases h with rfl | habove
  · rfl
  · obtain ⟨k, rfl⟩ := Nat.exists_eq_add_of_le' habove
    rfl

/-- Settles O19: each identifier of Table 9-3 by what it stores. -/
theorem setParameterClampsAndStores : Obligations.SetParameterClampsAndStores := by
  intro v s row stored limit
  have store {ident : Nat} {p : Params} {body : ReplyBody} (h : s.params.store ident v = some (p, body)) :
      s.answersAs (row ident) 13 .done body (s.parameterStored p ident) := (answered_parameterStored h).answers.row fun _ => rfl
  exact ⟨store rfl, store (ident := 2) (p := { s.params with checkFailureLimit := limit }) rfl, store rfl, store rfl, store rfl, store rfl, store rfl, store rfl, store rfl, store rfl, store rfl,
    store rfl, store rfl, store rfl,
    fun ident h => (answered_parameterRefused (s.params.store_unnamed v h)).answers.row fun _ => rfl⟩

/-! ### The board's commands and its sweep (O22) -/

/-- An ascending list cut at a value is the part below it and then the rest. -/
theorem filter_below_append {l : List Nat} (h : l.Pairwise (· < ·)) (bound : Nat) :
    (l.filter fun c => c < bound) ++ l.filter (fun c => bound ≤ c) = l := by
  induction l with
  | nil => rfl
  | cons x rest ih =>
    obtain ⟨hx, hrest⟩ := List.pairwise_cons.1 h
    by_cases hb : x < bound
    · rw [List.filter_cons_of_pos (by simpa using hb), List.filter_cons_of_neg (by simpa using hb), List.cons_append, ih hrest]
    · have hbelow : (rest.filter fun c => c < bound) = [] :=
        List.filter_eq_nil_iff.2 fun c hc => by have := hx c hc; simp only [decide_eq_true_eq]; omega
      have habove : (rest.filter fun c => bound ≤ c) = rest :=
        List.filter_eq_self.2 fun c hc => by have := hx c hc; simp only [decide_eq_true_eq]; omega
      rw [List.filter_cons_of_neg (by simpa using hb), List.filter_cons_of_pos (by simpa using hb), hbelow, habove]
      rfl

/-- The cells below a panel and then its own are those below the next (R102). -/
theorem filter_panel_append {l : List Nat} (h : l.Pairwise (· < ·)) (panel : Nat) :
    (l.filter fun c => c < 64 * panel) ++ l.filter (fun c => panelOf c = panel) = l.filter fun c => c < 64 * (panel + 1) := by
  rw [← filter_below_append (h.sublist List.filter_sublist : (l.filter fun c => c < 64 * (panel + 1)).Pairwise (· < ·))
    (64 * panel), List.filter_filter, List.filter_filter]
  congr 1 <;> refine List.filter_congr fun c _ => ?_ <;> simp only [panelOf, ← Bool.decide_and] <;> congr 1 <;>
    rw [eq_iff_iff] <;> omega

/-- The assigned cells in ascending order are those of the four panels in turn (R102, R109). -/
theorem Board.assigned_byPanel {b : Board} (h : tableAscending b.cellMap) (hrange : ∀ c ∈ b.assigned, c < 256) :
    b.assignedOf 0 ++ b.assignedOf 1 ++ b.assignedOf 2 ++ b.assignedOf 3 = b.assigned := by
  have hascend : b.assigned.Pairwise (· < ·) := h
  have hnone : (b.assigned.filter fun c => c < 64 * 0) = [] := List.filter_eq_nil_iff.2 fun c _ => by simp
  have hall : (b.assigned.filter fun c => c < 64 * (3 + 1)) = b.assigned :=
    List.filter_eq_self.2 fun c hc => by simpa using hrange c hc
  rw [← hall, ← filter_panel_append hascend 3, ← filter_panel_append hascend 2, ← filter_panel_append hascend 1,
    ← filter_panel_append hascend 0, hnone]
  rfl

/-- The sweep: every OUT panel PROBING and every assigned cell marked in ascending order (R109). -/
theorem Board.sweep_eq {b : Board} (h : tableAscending b.cellMap) (hrange : ∀ c ∈ b.assigned, c < 256)
    (hpanels : b.panels.length = 4) :
    b.sweep = { b with
      panels := b.panels.map fun p => if p.state = .out then { p with state := .probing } else p
      dirty := markCells b.dirty b.assigned } := by
  have hpanel (p : Panel) : { p with state := if p.state = .out then .probing else p.state } =
      if p.state = .out then { p with state := .probing } else p := by split <;> rfl
  obtain ⟨p0, p1, p2, p3, heq⟩ : ∃ p0 p1 p2 p3, b.panels = [p0, p1, p2, p3] := by
    match b.panels, hpanels with
    | [p0, p1, p2, p3], _ => exact ⟨p0, p1, p2, p3, rfl⟩
  have hdirty : markCells b.dirty b.assigned =
      markCells (markCells (markCells (markCells b.dirty (b.assignedOf 0)) (b.assignedOf 1)) (b.assignedOf 2)) (b.assignedOf 3) := by
    rw [← Board.assigned_byPanel h hrange]
    simp only [markCells, List.foldl_append]
  rw [hdirty]
  simp only [Board.sweep, Board.sweepPanel, Board.modifyPanel, Board.mark, heq, hpanel]
  rfl

/-- A board that is not PAUSED is RUNNING again with nothing assembled: a PAUSING one has its block in flight (R113, R114). -/
theorem State.boardContinued_unpaused {s : State} (hlaw : s.board.paused) (h : s.board.pause ≠ .paused) :
    s.boardContinued = { s with board := { s.board with pause := .running } } := by
  unfold State.boardContinued
  split
  · rfl
  · next hrunning =>
    have hpausing : s.board.pause = .pausing := by
      cases hpause : s.board.pause with
      | running => exact absurd hpause hrunning
      | pausing => rfl
      | paused => exact absurd hpause h
    obtain ⟨blk, hblk⟩ := Option.isSome_iff_exists.1 (hlaw.1 hpausing)
    exact if_neg fun hready => by cases hblk.symm.trans hready.2

/-- A panel restored: IN with count 0, its assigned cells marked (R111). -/
theorem Board.restored_eq {b : Board} {panel : Nat} (h : panel < b.panels.length) :
    b.restored panel = { b with
      panels := b.panels.set panel { state := .inService, failures := 0 }
      dirty := markCells b.dirty ((b.cellMap.map Prod.fst).filter fun c => c / 64 = panel) } := by
  have hset : b.panels.modify panel (fun _ => Panel.fresh) = b.panels.set panel Panel.fresh := by
    rw [List.modify_eq_set_getElem?, List.getElem?_eq_getElem h]
    rfl
  rw [Board.restored, Board.modifyPanel, hset]
  rfl

/-- Settles O22: each command by its answer, the sweep by `Board.sweep_eq`. -/
theorem boardContinuesAndSweeps : Obligations.BoardContinuesAndSweeps := by
  refine ⟨?_, fun panel count check s hrefs hpanels => ⟨fun hdue => ?_, fun hdue => ?_, fun hnone => ⟨?_, ?_⟩⟩⟩
  · intro panel s hlawful restore running
    obtain ⟨-, -, hpanels, -, hpaused, -⟩ := hlawful
    have hcontinued : s.answersAs Instr.continueBoard 15 .done (.pauseState .running) s.boardContinued :=
      answered_continueBoard.answers.row fun _ => rfl
    refine ⟨fun hpause => ?_, fun hpause => ⟨s.boardContinued, ?_, hcontinued⟩,
      fun hpanel => (answered_panelRefused hpanel).answers.row fun _ => rfl, fun hpanel => ?_⟩
    · rw [State.boardContinued_unpaused hpaused hpause] at hcontinued
      exact hcontinued
    · rw [State.boardContinued, if_neg (by rw [hpause]; decide)]
      rfl
    · have hrestored := (answered_panelRestored (s := s) (not_lt.2 hpanel)).answers.row (row := restore) fun _ => rfl
      rw [Board.restored_eq (by omega)] at hrestored
      exact hrestored
  · obtain ⟨htables, -⟩ := (State.referencesAgree_iff s).1 hrefs
    have hrange : ∀ c ∈ s.board.assigned, c < 256 := by
      intro c hc
      obtain ⟨e, he, rfl⟩ := List.mem_map.1 hc
      exact (htables.cell e.1 e.2 (tableGet_of_mem htables.cellsAscend he)).1
    simp only [exec, execSweepExpiry, if_pos hdue]
    rw [Board.sweep_eq htables.cellsAscend hrange hpanels]
    rfl
  · simp only [exec, execSweepExpiry, hdue]
    rfl
  · simp only [exec, execBoardAnswer, hnone]
  · simp only [exec, execBlockDeadline, hnone]

end Sys2Proof.Machine
end


section
/-! PROOF. The five queries (R181) and the ASSIGN command (R179). -/

namespace Sys2Proof.Machine

/-! ### The reports in the terms of their rules -/

/-- The OMITTED notice's count is the first that the queue holds (R73). -/
theorem omittedQueued_eq (queue : List Item) :
    omittedQueued queue = queue.findSome? fun i =>
      match i.kind with
      | .omitted count => some count
      | _ => none := by
  induction queue with
  | nil => rfl
  | cons i rest ih =>
    rw [omittedQueued, List.findSome?_cons]
    cases i.kind with
    | omitted count => rfl
    | _ => exact ih

theorem Tape.report_eq (t : Tape) :
    t.report = {
      ribbon :=
        match t.ribbon with
        | .idle => .idle
        | .notice _ _ => .notice
        | .item _ _ => .item
      level := t.level
      queued := t.queue.length
      omittedQueued := t.queue.findSome? fun i =>
        match i.kind with
        | .omitted count => some count
        | _ => none
      omitted := t.omitted
      shown := t.shown.length } := by
  rw [Tape.report, omittedQueued_eq]
  cases t.ribbon <;> rfl

theorem isSome_eq_decide (deadline : Option Reading) : deadline.isSome = decide (deadline ≠ none) := by cases deadline <;> rfl

theorem State.unitReport_eq (s : State) :
    s.unitReport = {
      address := s.manager.address
      source := s.manager.source
      state := s.manager.state
      cause := s.manager.cause
      lamp :=
        { held := decide (s.manager.state = .held)
          feedLost := decide (s.feed.feed = .lost)
          errorLimit := s.feed.errorLimit
          deskStuck := decide (s.desk.line = .stuck)
          panelOut := s.board.panels.any fun p => decide (p.state = .out) }
      primaries := (s.directory.entries.filter fun e => e.kind = .primary).length
      aliases := (s.directory.entries.filter fun e => e.kind = .aliased).length
      operation :=
        match s.directory.operation with
        | .idle => .idle
        | .draining _ _ => .draining
        | .working _ _ => .working
      session := s.store.session
      floor := s.store.floor
      walk := s.store.walk } := by
  rw [State.unitReport]
  cases s.directory.operation <;> rfl

/-- The lamp is lit exactly while one of its five conditions holds (R189). -/
theorem State.unitAttention_iff (s : State) :
    s.unitAttention = true ↔ s.manager.state = .held ∨ s.feed.feed = .lost ∨ s.feed.errorLimit = true ∨
      s.desk.line = .stuck ∨ ∃ p ∈ s.board.panels, p.state = .out := by
  simp only [State.unitAttention, State.lamp, Bool.or_eq_true, decide_eq_true_eq, List.any_eq_true, or_assoc]

/-! ### The queries (O23) -/

section
variable {s : State} {addr : Nat}

/-- A query's part, put in the place reserved for it (R169, R181). -/
theorem exec_answered {row : Instr} {deal : Route → State → State} {echo : Nat} {status : Status} {body : ReplyBody}
    (hrow : exec row s = .next (s.passCommand addr deal)) (htakes : s.takes addr)
    (hdeal : deal .place s.reservePlace = s.reservePlace.answer .place echo status body) :
    exec row s = .next (s.replied echo status body) := by
  rw [hrow, State.passCommand_taken htakes, hdeal, State.answer_place]

theorem exec_queryStatus {part : Nat} {body : ReplyBody} (htakes : s.takes addr)
    (h : s.reservePlace.statusPart part = some body) : exec (.queryStatus addr part) s = .next (s.replied 17 .done body) :=
  exec_answered (deal := dealQueryStatus part) rfl htakes (by rw [dealQueryStatus, h]; rfl)

theorem exec_queryRecord {part n : Nat} {q : QuoteRecord} {body : ReplyBody} (htakes : s.takes addr) (hn : n < 512)
    (hpart : part ≤ 3) (hq : s.record? n = some q) (h : s.recordPart q part = some body) :
    exec (.queryRecord addr part n) s = .next (s.replied 18 .done body) := by
  have hrange : ¬ (3 < part ∨ 512 ≤ n) := by omega
  have hplace : s.reservePlace.record? n = some q := hq
  have hbody : s.reservePlace.recordPart q part = some body := h ▸ by unfold State.recordPart; rfl
  refine exec_answered (deal := dealQueryRecord part n) rfl htakes ?_
  simp only [dealQueryRecord, if_neg hrange, hplace, hbody]
  rfl

theorem exec_queryStation {part n : Nat} {st : Station} {body : ReplyBody} (htakes : s.takes addr)
    (hst : s.desk.stations[n]? = some st) (h : s.stationPart n st part = some body) :
    exec (.queryStation addr part n) s = .next (s.replied 19 .done body) := by
  have hplace : s.reservePlace.desk.stations[n]? = some st := hst
  have hbody : s.reservePlace.stationPart n st part = some body := h ▸ by unfold State.stationPart; rfl
  refine exec_answered (deal := dealQueryStation part n) rfl htakes ?_
  simp only [dealQueryStation, hplace, hbody]
  rfl

theorem exec_queryWatch {part n : Nat} {st : Station} {body : ReplyBody} (htakes : s.takes addr)
    (hst : s.desk.stations[n]? = some st) (h : s.watchPart st part = some body) :
    exec (.queryWatch addr part n) s = .next (s.replied 20 .done body) := by
  have hplace : s.reservePlace.desk.stations[n]? = some st := hst
  have hbody : s.reservePlace.watchPart st part = some body := h ▸ by unfold State.watchPart; rfl
  refine exec_answered (deal := dealQueryWatch part n) rfl htakes ?_
  simp only [dealQueryWatch, hplace, hbody]
  rfl

/-- A broadcast query does nothing (R181). -/
theorem exec_queryBroadcast (part n : Nat) (s : State) :
    ∀ c ∈ [Instr.queryStatus 63 part, .queryRecord 63 part n, .queryStation 63 part n, .queryWatch 63 part n,
      .queryCounters 63 part], exec c s = .next s := by
  have hrecord : dealQueryRecord part n .broadcast s = s := by
    unfold dealQueryRecord
    split
    · rfl
    · split
      · rfl
      · exact State.answerPart_broadcast ..
  have hstation : dealQueryStation part n .broadcast s = s := by
    unfold dealQueryStation
    split
    · rfl
    · exact State.answerPart_broadcast ..
  have hwatch : dealQueryWatch part n .broadcast s = s := by
    unfold dealQueryWatch
    split
    · rfl
    · exact State.answerPart_broadcast ..
  simp only [List.forall_mem_cons, List.not_mem_nil, false_imp_iff, implies_true, and_true]
  exact ⟨congrArg _ (State.answerPart_broadcast ..), congrArg _ hrecord, congrArg _ hstation, congrArg _ hwatch,
    congrArg _ (State.answerPart_broadcast ..)⟩

end

/-- Settles O23: every part by the query's lemma, every refusal by its own check. -/
theorem queriesOnlyAnswer : Obligations.QueriesOnlyAnswer := by
  intro addr part n s tape
  refine ⟨s.unitAttention_iff, exec_queryBroadcast part n s, fun htakes => ?_⟩
  refine ⟨exec_queryStatus htakes ?_, exec_queryStatus htakes ?_, exec_queryStatus htakes rfl, exec_queryStatus htakes ?_,
    exec_queryStatus htakes ?_, fun hpart => ?_, fun hrange => ?_, fun hpart hn hnone => ?_, fun hn q hq => ⟨?_, ?_, ?_, ?_⟩,
    fun hnone => ⟨?_, ?_⟩, fun st hst => ⟨?_, ?_, fun hpart => ?_, fun hpart => ?_, ?_, ?_, fun hpart => ?_⟩, ?_, fun hpart => ?_⟩
  · exact congrArg (fun report => some (ReplyBody.statusUnit report)) s.unitReport_eq
  · exact congrArg₂ (fun a b => some (ReplyBody.statusTapes a b)) s.tapeA.report_eq s.tapeB.report_eq
  · show some (ReplyBody.statusLine s.desk.report) = _
    rw [Desk.report, isSome_eq_decide]
  · show some (ReplyBody.statusFeed s.reservePlace.feedReport) = _
    rw [State.feedReport, isSome_eq_decide]
    rfl
  · obtain ⟨k, rfl⟩ := Nat.exists_eq_add_of_le' hpart
    exact exec_answered (deal := dealQueryStatus (k + 5)) rfl htakes rfl
  · exact exec_answered (deal := dealQueryRecord part n) rfl htakes (if_pos hrange)
  · have hrange : ¬ (3 < part ∨ 512 ≤ n) := by omega
    have hplace : s.reservePlace.record? n = none := hnone
    refine exec_answered (deal := dealQueryRecord part n) rfl htakes ?_
    rw [dealQueryRecord, if_neg hrange, hplace]
    rfl
  · exact exec_queryRecord htakes hn (by omega) hq rfl
  · exact exec_queryRecord htakes hn (by omega) hq rfl
  · exact exec_queryRecord htakes hn (by omega) hq rfl
  · exact exec_queryRecord htakes hn (by omega) hq rfl
  · have hplace : s.reservePlace.desk.stations[n]? = none := hnone
    refine exec_answered (deal := dealQueryStation part n) rfl htakes ?_
    rw [dealQueryStation, hplace]
    rfl
  · have hplace : s.reservePlace.desk.stations[n]? = none := hnone
    refine exec_answered (deal := dealQueryWatch part n) rfl htakes ?_
    rw [dealQueryWatch, hplace]
    rfl
  · exact exec_queryStation htakes hst rfl
  · exact exec_queryStation htakes hst rfl
  · obtain ⟨k, rfl⟩ := Nat.exists_eq_add_of_le' hpart
    have hplace : s.reservePlace.desk.stations[n]? = some st := hst
    refine exec_answered (deal := dealQueryStation (k + 2) n) rfl htakes ?_
    rw [dealQueryStation, hplace]
    rfl
  · interval_cases part <;> exact exec_queryWatch htakes hst rfl
  · exact exec_queryWatch htakes hst rfl
  · exact exec_queryWatch htakes hst rfl
  · obtain ⟨k, rfl⟩ := Nat.exists_eq_add_of_le' hpart
    have hplace : s.reservePlace.desk.stations[n]? = some st := hst
    refine exec_answered (deal := dealQueryWatch (k + 5) n) rfl htakes ?_
    rw [dealQueryWatch, hplace]
    rfl
  · exact exec_answered (deal := dealQueryCounters 0) rfl htakes rfl
  · refine exec_answered (deal := dealQueryCounters part) rfl htakes ?_
    rw [dealQueryCounters, if_neg (by omega)]
    rfl

/-! ### ASSIGN (O24) -/

/-- An ASSIGN with address 0 is passed on, replaced where it is taken, while the forward queue has room (R165, R179). -/
theorem exec_assign {n : Nat} {s : State}
    (h : s.takesCandidate n = true → (s.passAssign n).feed.forwardCount ≤ 512) :
    exec (.assign 0 n) s = .next (s.passAssign n) := by
  have hroom : ¬ (s.takesCandidate n = true ∧ 512 < (s.passAssign n).feed.forwardCount) :=
    fun ⟨htakes, hfull⟩ => absurd (h htakes) (not_le.2 hfull)
  simp only [exec, execAssign, if_true, if_neg hroom]

/-- Settles O24: the candidate taken, in the place of the newest message or joining after it; every other let go by. -/
theorem assignIsTakenAndReplaced : Obligations.AssignIsTakenAndReplaced := by
  intro addr n earlier s
  have takes (hsource : s.manager.source = .unassigned) (hlow : 1 ≤ n) (hhigh : n ≤ 62) : s.takesCandidate n = true := by
    simp only [State.takesCandidate, hsource, hlow, hhigh, decide_true, Bool.and_self]
  have htaken {next : Repeater} (h : s.takesCandidate n = true) (hnext : s.feed.replaceAssign n = next) :
      s.passAssign n = { s with manager := { s.manager with address := n, source := .assigned }, feed := next } := by
    rw [State.passAssign, if_pos h, ← hnext]
    rfl
  refine ⟨fun hsource hlow hhigh hroom hnewest => ?_, fun hsource hlow hhigh hroom hother => ?_, characterSum_checked _,
    fun hlet => ?_, fun htakes => ?_, congrArg Host.Outcome.next (State.passCommand_broadcast s dealAssign)⟩
  · have hreplaced : s.feed.replaceAssign n =
        { s.feed with forward := earlier ++ [queued (commandMessage 0 (.assign (n + 1)))] } := by
      have hlast : s.feed.forward.getLast? = some (assignMessage n) := by rw [hnewest, List.getLast?_concat]; rfl
      rw [Repeater.replaceAssign, if_pos hlast, hnewest, List.dropLast_concat]
      rfl
    have hstate := htaken (takes hsource hlow hhigh) hreplaced
    rw [exec_assign fun _ => ?_, hstate]
    rw [hstate]
    simpa [Repeater.forwardCount, hnewest, length_assignMessage, ← assignMessage.eq_1] using hroom
  · have hreplaced : s.feed.replaceAssign n = s.feed.takeMessage (assignMessage (n + 1)) := if_neg hother
    have hstate := htaken (takes hsource hlow hhigh) hreplaced
    have hcount := Repeater.replaceAssign_count s.feed n
    rw [hreplaced] at hcount
    rw [exec_assign fun _ => ?_, hstate]
    · rfl
    · rw [hstate]
      exact hcount.trans (by omega)
  · have hnot : ¬ s.takesCandidate n = true := by
      simp only [State.takesCandidate, Bool.and_eq_true, decide_eq_true_eq, not_and]
      rintro ⟨hsource, hlow⟩ hhigh
      rcases hlet with h | h | h
      · exact h hsource
      · omega
      · omega
    rw [exec_assign fun h => absurd h hnot, State.passAssign, if_neg hnot]
  · obtain ⟨-, hlow, -⟩ := id htakes
    rw [show exec (.assign addr n) s = .next (s.passCommand addr dealAssign) from if_neg (by omega),
      State.passCommand_taken htakes]
    rfl

end Sys2Proof.Machine
end


section
/-! PROOF. Characters on FEED IN and their framing (R162, R163, R190), silence and the loss of the feed (R163, R164), and FEED OUT
(R166, R170). -/

namespace Sys2Proof.Machine

/-! ### Lock lost and faults counted (R162, R163) -/

/-- The loss deadline after a loss of lock (R163). -/
def State.lossDeadline (s : State) : Option Reading :=
  if s.feed.lossAt = none ∧ s.feed.feed = .normal then some (after s.clock (s.params.feedLossHold * 100)) else s.feed.lossAt

theorem State.loseLock_eq (s : State) :
    s.loseLock = { s with
      feed := { s.feed with lock := .searching, goodRun := 0, arriving := [], lossAt := s.lossDeadline }
      counters := { s.counters with lockLosses := bump s.counters.lockLosses 1 } } := by
  rw [State.loseLock, State.lossDeadline]
  cases hloss : s.feed.lossAt with
  | none => by_cases hfeed : s.feed.feed = .normal <;> simp [hfeed]
  | some deadline => simp

section
variable {s : State}

/-- A framing fault while SEARCHING makes the good run 0 (R163). -/
theorem State.countFramingFault_searching (h : s.feed.lock = .searching) :
    s.countFramingFault = { s with
      feed := { s.feed with arriving := [], goodRun := 0 }
      counters := { s.counters with framingFaults := bump s.counters.framingFaults 1 } } := by
  simp only [State.countFramingFault, h]

/-- The first and the second framing fault in a row while LOCKED keep lock (R163). -/
theorem State.countFramingFault_kept (h : s.feed.lock = .locked) (hrun : s.feed.faultRun < 2) :
    s.countFramingFault = { s with
      feed := { s.feed with arriving := [], faultRun := s.feed.faultRun + 1 }
      counters := { s.counters with framingFaults := bump s.counters.framingFaults 1 } } := by
  simp only [State.countFramingFault, h]
  rw [if_neg (by omega)]

/-- The third framing fault in a row while LOCKED loses lock (R163). -/
theorem State.countFramingFault_lost (h : s.feed.lock = .locked) (hrun : 2 ≤ s.feed.faultRun) :
    s.countFramingFault = { s with
      feed := { s.feed with
        arriving := [], faultRun := s.feed.faultRun + 1, lock := .searching, goodRun := 0, lossAt := s.lossDeadline }
      counters := { s.counters with
        framingFaults := bump s.counters.framingFaults 1, lockLosses := bump s.counters.lockLosses 1 } } := by
  simp only [State.countFramingFault, h]
  rw [if_pos (by omega), State.loseLock_eq]
  rfl

end

/-! ### Characters (O28) -/

/-- A character that joins with room for it: noted, and joined to what arrives (R165, R190). -/
theorem exec_feedCharacterReceived {s : State} {a : Arrival} (hjoins : s.classOf a = .joins)
    (hroom : s.joining a = 0 ∨ s.feed.forwardCount + s.joining a ≤ 512) :
    exec (.feedCharacterReceived a) s = .next { s.noteArrival with feed := s.noteArrival.feed.join a } := by
  have hplace : s.feed.hasRoom (s.joining a) = true := decide_eq_true hroom
  simp only [exec, execFeedCharacterReceived, if_pos hjoins, if_pos hplace]

/-- A framing fault: noted, counted, and what is held at the receiver after it (R162, R163). -/
theorem exec_framingFault {s : State} {a : Arrival} (hfault : s.classOf a = .framingFault) :
    exec (.framingFault a) s = .next { s.noteArrival.countFramingFault with
      feed := { s.noteArrival.countFramingFault.feed with heldFlag := heldAfterFault s.flagHeld a } } := by
  simp only [exec, execFramingFault, if_pos hfault]

section
variable {s : State}

theorem State.flagHeld_iff :
    s.flagHeld = true ↔ s.feed.heldFlag = true ∧ (s.clock - s.feed.lastArrival).toNat < 250 := by
  rw [State.flagHeld, Bool.and_eq_true, decide_eq_true_eq, elapsed]

/-- A data character that begins a message, or finds no flag held (R190). -/
theorem State.classOf_first (h : s.feed.arriving = []) (value : Byte) :
    s.classOf (.data value) = if s.flagHeld then .joins else .framingFault := by
  simp only [State.classOf, h, classOfData]

/-- The length character of a message joins it when it is in range (R162, R190). -/
theorem State.classOf_length {kind : Byte} (h : s.feed.arriving = [.flag, .data kind]) (value : Byte) :
    s.classOf (.data value) = if value.toNat < 4 ∨ 64 < value.toNat then .framingFault else .joins := by
  simp only [State.classOf, h, classOfData, dataOf]

/-- A later character of a message completes it when it is the last that its length calls for (R162). -/
theorem State.classOf_later {kind length : Byte} {more : List Byte} (h : s.feed.arriving = queued (kind :: length :: more))
    (value : Byte) : s.classOf (.data value) = if more.length + 3 = length.toNat then .completes else .joins := by
  simp only [State.classOf, h, classOfData, dataOf_queued]
  rfl

/-- What a framing fault leaves, by the lock state and the run before it (R162, R163). -/
def State.faulted (s : State) (held : Bool) : State :=
  let counted := { s.noteArrival with
    feed := { s.noteArrival.feed with arriving := [], heldFlag := held }
    counters := { s.counters with framingFaults := bump s.counters.framingFaults 1 } }
  if s.feed.lock = .searching then { counted with feed := { counted.feed with goodRun := 0 } }
  else if s.feed.faultRun < 2 then { counted with feed := { counted.feed with faultRun := s.feed.faultRun + 1 } }
  else
    { counted with
      feed := { counted.feed with
        faultRun := s.feed.faultRun + 1, lock := .searching, goodRun := 0, lossAt := s.lossDeadline }
      counters := { counted.counters with lockLosses := bump s.counters.lockLosses 1 } }

theorem exec_framingFault_faulted {a : Arrival} (h : s.classOf a = .framingFault) :
    exec (.framingFault a) s = .next (s.faulted (heldAfterFault s.flagHeld a)) := by
  have hlock : s.noteArrival.feed.lock = s.feed.lock := Repeater.sendCharacter_lock s.feed
  have hrun : s.noteArrival.feed.faultRun = s.feed.faultRun := Repeater.sendCharacter_faultRun s.feed
  have hdeadline : s.noteArrival.lossDeadline = s.lossDeadline := by
    simp only [State.lossDeadline, State.noteArrival, Repeater.arrivalNoted, Repeater.sendCharacter_lossAt,
      Repeater.sendCharacter_feed]
  rw [exec_framingFault h, State.faulted]
  cases hl : s.feed.lock with
  | searching =>
    rw [if_pos rfl, State.countFramingFault_searching (hlock.trans hl)]
    rfl
  | locked =>
    rw [if_neg (by decide)]
    by_cases hfew : s.feed.faultRun < 2
    · rw [if_pos hfew, State.countFramingFault_kept (hlock.trans hl) (by omega), hrun]
      rfl
    · rw [if_neg hfew, State.countFramingFault_lost (hlock.trans hl) (by omega), hrun, hdeadline]
      rfl

end

/-- Settles O28: each character by its class, and a fault by the lock state and the run before it. -/
theorem charactersFrameMessages : Obligations.CharactersFrameMessages := by
  intro a value kind length more s noted faulted held
  have harriving : s.noteArrival.feed.arriving = s.feed.arriving := Repeater.sendCharacter_arriving s.feed
  have joined {f : Repeater} (hjoins : s.classOf (.data value) = .joins)
      (hroom : s.feed.forwardCount + s.joining (.data value) ≤ 512) (hf : s.noteArrival.feed.join (.data value) = f) :
      exec (.feedCharacterReceived (.data value)) s = .next { noted with feed := f } := by
    rw [exec_feedCharacterReceived hjoins (Or.inr hroom), hf]
    rfl
  have started {first : FeedChar} {rest : List FeedChar} (h : s.feed.arriving = first :: rest) :
      s.joining (.data value) = 1 ∧
        s.noteArrival.feed.join (.data value) = { noted.feed with arriving := first :: rest ++ [.data value] } := by
    refine ⟨by simp only [State.joining, h, reduceCtorEq, if_false], ?_⟩
    rw [h] at harriving
    simp only [Repeater.join, harriving]
    rfl
  refine ⟨rfl, fun hnone => ?_, fun hnone hheld hroom => ?_, fun hbegun hlow hhigh hroom => ?_, fun hbegun hmore hroom => ?_,
    fun hbegun => exec_framingFault_faulted (if_neg hbegun), fun hnone hheld => ?_, fun hbegun hrange => ?_,
    ⟨_, exec_framingFault_faulted rfl⟩, fun hother => if_neg hother, fun hother => if_neg hother⟩
  · exact exec_feedCharacterReceived (a := .flag) (if_pos hnone) (Or.inl rfl)
  · refine joined ?_ ?_ ?_
    · rw [State.classOf_first hnone, if_pos (State.flagHeld_iff.2 hheld)]
    · simpa only [State.joining, if_pos hnone] using hroom
    · rw [hnone] at harriving
      simp only [Repeater.join, harriving]
      rfl
  · obtain ⟨hjoining, hjoin⟩ := started hbegun
    exact joined (by rw [State.classOf_length hbegun, if_neg (by omega)]) (by omega) hjoin
  · obtain ⟨hjoining, hjoin⟩ := started hbegun
    refine joined (by rw [State.classOf_later hbegun, if_neg hmore]) (by omega) (hjoin.trans ?_)
    simp [queued]
  · refine exec_framingFault_faulted (a := .data value) ?_
    rw [State.classOf_first hnone, if_neg (hheld <| State.flagHeld_iff.1 ·)]
  · refine exec_framingFault_faulted (a := .data value) ?_
    rw [State.classOf_length hbegun, if_pos hrange]

/-! ### Silence and the loss of the feed (O29) -/

/-- Settles O29: the two events by their conditions. -/
theorem silenceLosesLockAndFeed : Obligations.SilenceLosesLockAndFeed := by
  intro s deadline
  refine ⟨fun hlock hsilent => ?_, fun hkept => ?_, fun at_ hat hdue hlock => ?_, fun hkept => ?_⟩
  · simp only [exec, execLossOfLockOnSilence]
    rw [if_pos ⟨hlock, hsilent⟩, State.loseLock_eq]
    rfl
  · refine if_neg fun ⟨hlock, hsilent⟩ => ?_
    rcases hkept with hsearching | hshort
    · cases hlock.symm.trans hsearching
    · exact absurd hsilent (not_le.2 hshort)
  · have hcondition : due s.clock s.feed.lossAt = true ∧ s.feed.lock = .searching := ⟨by rw [hat]; exact hdue, hlock⟩
    simp only [exec, execFeedLost, if_pos hcondition]
    rfl
  · refine if_neg fun ⟨hdue, hlock⟩ => ?_
    rcases hkept with hnone | hlocked
    · rw [hnone] at hdue
      cases hdue
    · cases hlock.symm.trans hlocked

/-! ### FEED OUT (O30) -/

/-- What is being sent is all out, as the statement names it (R166). -/
theorem Repeater.unsent_finished (f : Repeater) :
    (match f.out with
      | .idleFlag unsent => unsent = []
      | .message => f.forward.headD [] = []
      | .reply _ unsent _ => unsent = []) ↔ f.unsent = [] := by
  unfold Repeater.unsent
  cases f.out <;> rfl

theorem Repeater.afterSending_eq (f : Repeater) :
    (if f.out = .message then f.forward.drop 1 else f.forward) = f.afterSending := by
  unfold Repeater.afterSending
  cases f.out <;> simp

section
variable {f : Repeater}

/-- The character sent, by what is being sent after the one before (R166). -/
theorem Repeater.sendCharacter_idleFlag {unsent : List FeedChar} (h : f.whenFree.out = .idleFlag unsent) :
    f.sendCharacter = { f.whenFree with out := .idleFlag (unsent.drop 1) } := by simp only [Repeater.sendCharacter, h]

theorem Repeater.sendCharacter_message (h : f.whenFree.out = .message) :
    f.sendCharacter = { f.whenFree with forward := moveHead 1 f.whenFree.forward } := by simp only [Repeater.sendCharacter, h]

theorem Repeater.sendCharacter_reply {reply : Reply} {unsent : List FeedChar} {place : Bool}
    (h : f.whenFree.out = .reply reply unsent place) :
    f.sendCharacter = { f.whenFree with out := .reply reply (unsent.drop 1) place } := by
  simp only [Repeater.sendCharacter, h]

end

/-- Settles O30: FEED OUT, free and then not free; the quiet line; the expiry of replies. -/
theorem feedOutSendsByPriority : Obligations.FeedOutSendsByPriority := by
  refine ⟨?_, fun _ _ => ⟨rfl, rfl⟩⟩
  intro position s finished rest left replying
  have hfinished : finished ↔ s.feed.unsent = [] := s.feed.unsent_finished
  have hrest : rest = s.feed.afterSending := s.feed.afterSending_eq
  have hleft : left = s.feed.leftCount := by show _ + _ = _; rw [hrest]; rfl
  have free {f : Repeater} (h : s.feed.whenFree = f) : exec .feedOutFree s = .next { s with feed := f } := by rw [← h]; rfl
  refine ⟨fun hdone => ⟨fun first more hfilled hfew => ?_, fun head others hnone heq => ?_, fun hnone hempty => ?_⟩, fun hbusy =>
    ?_, rfl, fun held hheld hdue => ?_, fun held hheld hdue => ?_⟩
  · have hwhen : s.feed.whenFree = replying first more first.reply.characters := by
      rw [Repeater.whenFree_reply (hfinished.1 hdone) hfilled (hleft ▸ hfew), ← hrest]
    exact ⟨free hwhen, by rw [Repeater.sendCharacter_reply (congrArg Repeater.out hwhen), hwhen]⟩
  · have hwhen : s.feed.whenFree = { s.feed with forward := rest, out := .message } := by
      rw [Repeater.whenFree_message (hfinished.1 hdone) (hleft ▸ hnone), ← hrest, heq]
      rfl
    refine ⟨free hwhen, ?_⟩
    rw [Repeater.sendCharacter_message (congrArg Repeater.out hwhen), hwhen, heq]
    rfl
  · have hwhen : s.feed.whenFree = { s.feed with forward := [], out := .idleFlag [.flag] } := by
      rw [Repeater.whenFree_message (hfinished.1 hdone) (hleft ▸ hnone), ← hrest, hempty]
      rfl
    refine ⟨free hwhen, ?_⟩
    rw [Repeater.sendCharacter_idleFlag (congrArg Repeater.out hwhen), hwhen]
    rfl
  · have hwhen : s.feed.whenFree = s.feed := Repeater.whenFree_busy (hbusy <| hfinished.2 ·)
    refine ⟨free hwhen, fun unsent hout => ?_, fun head others hout hforward => ?_, fun reply unsent place hout => ?_⟩
    · rw [Repeater.sendCharacter_idleFlag (by rw [hwhen, hout]), hwhen]
    · rw [Repeater.sendCharacter_message (by rw [hwhen, hout]), hwhen, hforward]
      rfl
    · rw [Repeater.sendCharacter_reply (by rw [hwhen, hout]), hwhen]
  · simp only [exec, execReplyExpiry, hheld, hdue, if_true]
    rfl
  · simp only [exec, execReplyExpiry, hheld, hdue]
    rfl

end Sys2Proof.Machine
end


section
/-! PROOF. Whole messages that are no command and no market message or fail their check, and how lock is gained (R163, R164, R167,
R168). -/

namespace Sys2Proof.Machine

/-! ### Lock gained (R163, R164) -/

/-- A repeater that has gained lock, its feed NORMAL and no loss deadline running (R163, R164). -/
def Repeater.locked (f : Repeater) : Repeater :=
  { f with lock := .locked, goodRun := 2, faultRun := 0, lossAt := none, feed := .normal }

/-- What FEED OUT sends does not rest on lock (R166). -/
theorem Repeater.whenFree_locked (f : Repeater) : f.locked.whenFree = f.whenFree.locked := by
  have hstart (g : Repeater) : g.locked.startNext = g.startNext.locked := by
    unfold Repeater.startNext
    show (match g.filled with | first :: rest => _ | [] => _) = _
    cases g.filled with
    | nil => rfl
    | cons first rest =>
      show (if g.forwardCount ≤ 256 then _ else _) = _
      simp only
      split <;> rfl
  by_cases h : f.unsent = []
  · have hlocked : f.locked.unsent = [] := h
    rw [Repeater.whenFree, if_pos hlocked, Repeater.whenFree, if_pos h]
    exact hstart { f with forward := f.afterSending }
  · have hlocked : ¬ f.locked.unsent = [] := h
    rw [Repeater.whenFree, if_neg hlocked, Repeater.whenFree, if_neg h]

theorem Repeater.sendCharacter_locked (f : Repeater) : f.locked.sendCharacter = f.sendCharacter.locked := by
  have hwhen := Repeater.whenFree_locked f
  have hout : f.locked.whenFree.out = f.whenFree.out := by rw [hwhen]; rfl
  cases h : f.whenFree.out with
  | idleFlag unsent =>
    rw [Repeater.sendCharacter_idleFlag (hout.trans h), Repeater.sendCharacter_idleFlag h, hwhen]
    rfl
  | message =>
    rw [Repeater.sendCharacter_message (hout.trans h), Repeater.sendCharacter_message h, hwhen]
    rfl
  | reply reply unsent place =>
    rw [Repeater.sendCharacter_reply (hout.trans h), Repeater.sendCharacter_reply h, hwhen]
    rfl

/-- The intake and the board as FEED RESTORED leaves them: unsynchronised, every assigned cell marked (R164). -/
def State.resynchronised (s : State) : State :=
  { s with
    intake := { s.intake with expectation := none }
    board := { s.board with dirty := Machine.markCells s.board.dirty (s.board.cellMap.map Prod.fst) } }

/-- What a feed that was LOST tells intake, the board and the tapes when it is NORMAL again (R164). -/
def State.toldRestored (s : State) : State :=
  if s.feed.feed = .lost then s.resynchronised.offer true true .feedRestored else s

/-- What is told does not rest on the repeater's other fields. -/
theorem State.toldRestored_feed {s : State} {f : Repeater} (h : f.feed = s.feed.feed) :
    State.toldRestored { s with feed := f } = { s.toldRestored with feed := f } := by
  unfold State.toldRestored
  by_cases hlost : s.feed.feed = .lost
  · rw [if_pos hlost, if_pos (show f.feed = .lost from h.trans hlost)]
    exact State.offer_feed s.resynchronised true true .feedRestored f
  · rw [if_neg hlost, if_neg (show ¬ f.feed = .lost from fun hf => hlost (h.symm.trans hf))]

/-- Lock gained: the repeater LOCKED, and FEED RESTORED told where the feed was LOST (R163, R164). -/
theorem State.gainLock_eq (s : State) : s.gainLock = { s.toldRestored with feed := s.feed.locked } := by
  rw [State.gainLock, State.toldRestored]
  by_cases hlost : s.feed.feed = .lost
  · rw [if_pos hlost, if_pos hlost]
    exact State.offer_feed s.resynchronised true true .feedRestored s.feed.locked
  · rw [if_neg hlost, if_neg hlost, Repeater.locked, ← FeedState.normal_of_not_lost hlost]

theorem State.toldRestored_clock (s : State) : s.toldRestored.clock = s.clock := by
  unfold State.toldRestored
  split
  · rw [State.offer_frame]
    rfl
  · rfl

/-- An arrival noted before or after lock is gained: FEED OUT sends the same, and the fault run is 0 (R163, R166). -/
theorem State.gainLock_arrived (s : State) :
    ({ s.gainLock.arrived with feed := { s.gainLock.arrived.feed with faultRun := 0 } } : State) = s.arrived.gainLock := by
  have hfeed : s.arrived.feed.feed = s.feed.feed := Repeater.sendCharacter_feed s.feed
  have harrived : s.arrived.toldRestored = { s.toldRestored with feed := s.arrived.feed } :=
    State.toldRestored_feed hfeed
  rw [State.gainLock_eq s.arrived, harrived, State.gainLock_eq s]
  simp only [State.arrived, State.noteArrival, Repeater.arrivalNoted, Repeater.sendCharacter_locked, State.toldRestored_clock]
  rfl

/-! ### A whole message by its kind (R167) -/

/-- The first character of a message is its kind (R190). -/
theorem fieldOf_kind (kind : Byte) (rest : List Byte) : fieldOf (kind :: rest) 0 1 = kind.toNat := by
  simp [fieldOf, slice, numberOf]

theorem isMarketKind_iff (kind : Nat) : isMarketKind kind = true ↔ 17 ≤ kind ∧ kind ≤ 26 := by simp [isMarketKind]

section
variable {s : State} {bytes : List Byte}

/-- Another unit's reply is forwarded only (R167). -/
theorem State.examine_reply (h : fieldOf bytes 0 1 = 65) : s.examine bytes = s.forwardMessage bytes := by
  simp [State.examine, h, isMarketKind]

/-- An unknown kind is forwarded and counted as malformed (R167). -/
theorem State.examine_unknown
    (h : fieldOf bytes 0 1 < 17 ∨ (26 < fieldOf bytes 0 1 ∧ fieldOf bytes 0 1 < 64) ∨ 65 < fieldOf bytes 0 1) :
    s.examine bytes = (s.forwardMessage bytes).countMalformed := by
  have hmarket : ¬ isMarketKind (fieldOf bytes 0 1) = true := by rw [isMarketKind_iff]; omega
  simp only [State.examine]
  rw [if_neg hmarket, if_neg (by omega), if_neg (by omega)]

/-- A message whole while LOCKED with its check right is examined with the fault run 0 (R163, R167). -/
theorem State.receiveWhole_locked (hlock : s.feed.lock = .locked) (hcheck : characterSum bytes = 0) :
    s.receiveWhole bytes = State.examine { s with feed := { s.feed with faultRun := 0 } } bytes := by
  simp only [State.receiveWhole, hlock, State.receiveLocked, checkRight, decide_eq_true hcheck, if_true]

/-- One with a wrong check is forwarded and counted (R167, R168). -/
theorem State.receiveWhole_failed (hlock : s.feed.lock = .locked) (hcheck : characterSum bytes ≠ 0) :
    s.receiveWhole bytes =
      (State.forwardMessage { s with feed := { s.feed with faultRun := 0 } } bytes).countCheckFailure := by
  simp only [State.receiveWhole, hlock, State.receiveLocked, checkRight, decide_eq_false hcheck, Bool.false_eq_true, if_false]

theorem State.receiveWhole_searching (hlock : s.feed.lock = .searching) : s.receiveWhole bytes = s.receiveSearching bytes := by
  simp only [State.receiveWhole, hlock]

/-- While SEARCHING the second well-formed message brings lock and is acted on (R163). -/
theorem State.receiveWhole_gains (hlock : s.feed.lock = .searching) (hcheck : characterSum bytes = 0) (hrun : s.feed.goodRun = 1) :
    s.receiveWhole bytes = s.gainLock.examine bytes := by
  simp only [State.receiveWhole_searching hlock, State.receiveSearching, checkRight, decide_eq_true hcheck, hrun, if_true, le_refl]

end

/-! ### The examination by lock and check (O27) -/

/-- Settles O27: while LOCKED by check and kind, while SEARCHING by check and good run, and the message that brings lock by
`State.gainLock_arrived`. -/
theorem wholeMessagesMoveLockAndCounts : Obligations.WholeMessagesMoveLockAndCounts := by
  intro kind length more last s hcompleted bytes passed gained restored failures locked
  have received : exec (.feedMessageReceived last) s = .next (s.arrived.receiveWhole bytes) :=
    exec_feedMessageReceived s _ last hcompleted
  have hkind : fieldOf bytes 0 1 = kind.toNat := fieldOf_kind kind _
  have hlock : s.arrived.feed.lock = s.feed.lock := Repeater.sendCharacter_lock s.feed
  have hrun : s.arrived.feed.goodRun = s.feed.goodRun := Repeater.sendCharacter_goodRun s.feed
  have hlimit : s.arrived.feed.errorLimit = s.feed.errorLimit := Repeater.sendCharacter_errorLimit s.feed
  have hfeed : s.arrived.feed.feed = s.feed.feed := Repeater.sendCharacter_feed s.feed
  have hgained : (if s.feed.feed = .lost then restored else gained) = s.gainLock := by
    rw [State.gainLock]
    by_cases hlost : s.feed.feed = .lost
    · rw [if_pos hlost, if_pos hlost]
      rfl
    · rw [if_neg hlost, if_neg hlost]
      show ({ s with feed := s.feed.locked } : State) = _
      rw [Repeater.locked, ← FeedState.normal_of_not_lost hlost]
  have brings (hsearching : s.feed.lock = .searching) (hcheck : characterSum bytes = 0) (hone : s.feed.goodRun = 1) :
      exec (.feedMessageReceived last) s = .next (s.arrived.gainLock.examine bytes) := by
    rw [received, State.receiveWhole_gains (hlock.trans hsearching) hcheck (hrun.trans hone)]
  refine ⟨fun hl hcheck => ?_, fun hl hcheck hk => ?_, fun hl hcheck hk => ?_, fun hl hcheck => ?_, fun hl hcheck hzero => ?_,
    fun hl hcheck hone => ⟨?_, _, brings hl hcheck hone⟩, fun hl hcheck hone hk => ⟨fun hnormal => ?_, fun hlost => ?_⟩⟩
  · rw [received, State.receiveWhole_failed (hlock.trans hl) hcheck]
    simp only [State.countCheckFailure, State.forwardMessage, hlimit, errorLimitAfter]
    rfl
  · rw [received, State.receiveWhole_locked (hlock.trans hl) hcheck, State.examine_reply (by rw [hkind, hk]; rfl)]
    rfl
  · rw [received, State.receiveWhole_locked (hlock.trans hl) hcheck, State.examine_unknown (by rw [hkind]; exact hk)]
    rfl
  · rw [received, State.receiveWhole_searching (hlock.trans hl), State.receiveSearching, checkRight, decide_eq_false hcheck]
    rfl
  · rw [received, State.receiveWhole_searching (hlock.trans hl), State.receiveSearching, checkRight, decide_eq_true hcheck,
      if_pos rfl, if_neg (by rw [hrun, hzero]; decide), hrun, hzero]
    rfl
  · have hfeedGained : s.gainLock.feed = s.feed.locked := by rw [State.gainLock_eq]
    have hcompletes : s.gainLock.completedBy (kind :: length :: more) := by
      obtain ⟨harriving, hroom, hshape⟩ := hcompleted
      exact ⟨by rw [hfeedGained]; exact harriving, by rw [hfeedGained]; exact hroom, hshape⟩
    have hlocked : s.gainLock.arrived.feed.lock = .locked :=
      (Repeater.sendCharacter_lock s.gainLock.feed).trans (by rw [hfeedGained]; rfl)
    rw [hgained, brings hl hcheck hone, exec_feedMessageReceived _ _ last hcompletes, State.receiveWhole_locked hlocked hcheck,
      State.gainLock_arrived]
  · rw [brings hl hcheck hone, State.examine_reply (by rw [hkind, hk]; rfl), State.gainLock_forwardMessage, State.gainLock_eq,
      State.toldRestored, if_neg (show ¬ (s.arrived.forwardMessage bytes).feed.feed = .lost by
        rw [show (s.arrived.forwardMessage bytes).feed.feed = s.feed.feed from hfeed, hnormal]; decide)]
    rfl
  · rw [brings hl hcheck hone, State.examine_reply (by rw [hkind, hk]; rfl), State.gainLock_forwardMessage, State.gainLock_eq,
      State.toldRestored, if_pos (show (s.arrived.forwardMessage bytes).feed.feed = .lost from hfeed.trans hlost)]
    refine congrArg Host.Outcome.next ?_
    exact (State.offer_feed passed.resynchronised true true .feedRestored locked).symm

end Sys2Proof.Machine
end


section
/-! PROOF. Commands and market messages read back from their characters (Tables 10-1 to 10-3, R162, R191, R192). -/

namespace Sys2Proof.Machine

/-! ### Numbers in characters (Chapter 10) -/

/-- Reading characters on from a value already read. -/
theorem foldl_charactersOf (width value acc : Nat) :
    (charactersOf width value).foldl (fun acc b => acc * 256 + b.toNat) acc = acc * 256 ^ width + value % 256 ^ width := by
  induction width generalizing acc with
  | zero => simp [charactersOf, Nat.mod_one]
  | succ width ih =>
    have hdigit : (BitVec.ofNat 8 (value / 256 ^ width)).toNat = value / 256 ^ width % 256 := by simp
    rw [charactersOf, List.foldl_cons, ih, hdigit, pow_succ, Nat.mod_mul (x := value)]
    ring

/-- A number that fits its characters is read back (Chapter 10). -/
theorem numberOf_charactersOf {width value : Nat} (h : fits width value = true) : numberOf (charactersOf width value) = value := by
  rw [fits, decide_eq_true_eq] at h
  rw [numberOf, foldl_charactersOf, Nat.mod_eq_of_lt h]
  omega

/-! ### Fields of a body -/

/-- A field that stands after the first characters of a body. -/
theorem slice_skip {front : List Byte} {start : Nat} (h : front.length ≤ start) (rest : List Byte) (width : Nat) :
    slice (front ++ rest) start width = slice rest (start - front.length) width := by
  rw [slice, slice, List.drop_append, List.drop_eq_nil_of_le h, List.nil_append]

theorem slice_front {front : List Byte} {width : Nat} (h : front.length = width) (rest : List Byte) :
    slice (front ++ rest) 0 width = front := by
  rw [slice, List.drop_zero, List.take_left' h]

theorem slice_whole {front : List Byte} {width : Nat} (h : front.length = width) : slice front 0 width = front := by
  rw [slice, List.drop_zero, List.take_of_length_le h.le]

theorem fieldOf_skip {front : List Byte} {start : Nat} (h : front.length ≤ start) (rest : List Byte) (width : Nat) :
    fieldOf (front ++ rest) start width = fieldOf rest (start - front.length) width := by
  rw [fieldOf, slice_skip h, fieldOf]

theorem fieldOf_front {width value : Nat} (h : fits width value = true) (rest : List Byte) :
    fieldOf (charactersOf width value ++ rest) 0 width = value := by
  rw [fieldOf, slice_front (length_charactersOf width value), numberOf_charactersOf h]

theorem fieldOf_whole {width value : Nat} (h : fits width value = true) : fieldOf (charactersOf width value) 0 width = value := by
  rw [fieldOf, slice_whole (length_charactersOf width value), numberOf_charactersOf h]

/-! ### Codes and text (R191) -/

/-- A character below 256 is read back from its code. -/
theorem ofNat_characterOf {c : Char} (h : c.toNat < 256) : Char.ofNat (characterOf c).toNat = c := by
  rw [characterOf, BitVec.toNat_ofNat, Nat.mod_eq_of_lt h, Char.ofNat_toNat]

theorem map_characterOf {text : Text} (h : ∀ c ∈ text, c.toNat < 256) :
    (text.map characterOf).map (fun b => Char.ofNat b.toNat) = text := by
  rw [List.map_map]
  exact (List.map_congr_left fun c hc => ofNat_characterOf (h c hc)).trans (List.map_id' text)

/-- Spaces at the end are taken off (R191). -/
theorem trimSpaces_spaces (count : Nat) : trimSpaces (List.replicate count ' ') = [] := by
  induction count with
  | zero => rfl
  | succ count ih => simp [List.replicate_succ, trimSpaces, ih]

theorem trimSpaces_append_spaces (text : Text) (count : Nat) :
    trimSpaces (text ++ List.replicate count ' ') = trimSpaces text := by
  induction text with
  | nil => exact trimSpaces_spaces count
  | cons c rest ih => rw [List.cons_append, trimSpaces, ih, trimSpaces]

/-- Text that does not end in a space is kept. -/
theorem trimSpaces_kept {text : Text} (h : text.getLast? ≠ some ' ') : trimSpaces text = text := by
  induction text with
  | nil => rfl
  | cons c rest ih =>
    cases rest with
    | nil =>
      have hc : c ≠ ' ' := fun hc => h (by rw [hc]; rfl)
      simp [trimSpaces, hc]
    | cons d more =>
      rw [List.getLast?_cons_cons] at h
      rw [trimSpaces, ih h]

/-- A code that its field carries is read back (R191). -/
theorem codeOf_codeCharacters {code : Code} (h : code.carried = true) : codeOf (codeCharacters code) = code := by
  simp only [Code.carried, Bool.and_eq_true, decide_eq_true_eq, List.all_eq_true] at h
  obtain ⟨⟨hlength, hcharacters⟩, hlast⟩ := h
  have hfilled : codeCharacters code = code.map characterOf ++ List.replicate (5 - code.length) 32#8 := by
    rw [codeCharacters, List.take_append, List.take_of_length_le (by simpa using hlength), List.length_map, List.take_replicate]
    congr 2
    omega
  rw [codeOf, hfilled, List.map_append, map_characterOf hcharacters, List.map_replicate]
  exact (trimSpaces_append_spaces code _).trans (trimSpaces_kept hlast)

/-! ### Presence flags and slots (R191, R192) -/

/-- Up to four presence flags fit one character. -/
theorem fits_flagBits1 (a : Bool) : fits 1 (flagBits [a]) = true := by revert a; decide
theorem fits_flagBits2 (a b : Bool) : fits 1 (flagBits [a, b]) = true := by revert a b; decide
theorem fits_flagBits4 (a b c d : Bool) : fits 1 (flagBits [a, b, c, d]) = true := by revert a b c d; decide

theorem flagBits3_lt (a b c : Bool) : flagBits [a, b, c] < 8 := by revert a b c; decide

/-- The flag of a field is the bit of its place. -/
theorem flagBits_testBit (flags : List Bool) (bit : Nat) : (flagBits flags).testBit bit = flags.getD bit false := by
  induction flags generalizing bit with
  | nil => simp [flagBits]
  | cons b rest ih =>
    have hvalue : flagBits (b :: rest) = Nat.bit b (flagBits rest) := by
      cases b with
      | false => simp [flagBits, Nat.bit]
      | true => simp [flagBits, Nat.bit, Nat.add_comm]
    rw [hvalue]
    cases bit with
    | zero => simp
    | succ bit => rw [Nat.testBit_bit_succ, ih]; rfl

/-- An optional field read back by its flag; an absent one's characters are 0 and ignored (R191). -/
theorem presentField_getD {flags bit : Nat} {value : Option Nat} (h : flags.testBit bit = value.isSome) :
    presentField flags bit (value.getD 0) = value := by
  rw [presentField, h]
  cases value <;> rfl

theorem fits_getD {width : Nat} {value : Option Nat} (h : fitsOption width value = true) : fits width (value.getD 0) = true := by
  cases value with
  | none => simp [fits]
  | some value => exact h

/-! ### Commands (Table 10-3, R192) -/

/-- The cells of a slot, as the slot's characters carry them (R192). -/
theorem slotCells_slotCharacters {slot : Option (Nat × Nat)} (h : ∀ c, slot = some c → cellCarried c = true) (rest : List Byte) :
    slotCells (fieldOf (slotCharacters slot ++ rest) 0 1) (fieldOf (slotCharacters slot ++ rest) 1 1) = slot.toList := by
  cases slot with
  | none => simp [slotCharacters, slotCells, fieldOf, slice, numberOf]
  | some c =>
    obtain ⟨panel, cell⟩ := c
    have hc := h _ rfl
    simp only [cellCarried, Bool.and_eq_true, decide_eq_true_eq] at hc
    have hpanel : fits 1 panel = true := by simp only [fits, decide_eq_true_eq]; omega
    simp only [slotCharacters, List.append_assoc]
    rw [fieldOf_front hpanel, fieldOf_skip (by simp), length_charactersOf, Nat.sub_self, fieldOf_front hc.2, slotCells,
      if_neg (by omega)]
    rfl

/-- LOAD SYMBOL's arguments are read back from their 23 characters (Table 10-3). -/
theorem loadArgsOf_commandBody {a : LoadArgs} (h : a.carried = true) : loadArgsOf (commandBody (.loadSymbol a)) = a := by
  simp only [LoadArgs.carried, MonSettings.carried, Bool.and_eq_true, decide_eq_true_eq, List.all_eq_true] at h
  obtain ⟨⟨⟨⟨⟨⟨hcode, hrecord⟩, hgrid⟩, hlength⟩, hcells⟩, ⟨⟨⟨ht, hh⟩, hn⟩, hk⟩⟩, hclose⟩ := h
  have hslot (i : Nat) : ∀ c, a.cells[i]? = some c → cellCarried c = true := fun c hc => hcells c (List.mem_of_getElem? hc)
  have hlist : a.cells[0]?.toList ++ a.cells[1]?.toList = a.cells := by
    match a.cells, hlength with
    | [], _ => rfl
    | [c], _ => rfl
    | [c, d], _ => rfl
  have hprev : presentField (flagBits [a.prevClose.isSome]) 0 (a.prevClose.getD 0) = a.prevClose :=
    presentField_getD (flagBits_testBit _ 0)
  have hmask := fits_flagBits2 a.maskA a.maskB
  have hflag := fits_flagBits1 a.prevClose.isSome
  have hcloses := fits_getD hclose
  simp [-Nat.testBit_zero, loadArgsOf, commandBody, slice_front, codeOf_codeCharacters hcode, fieldOf_skip, fieldOf_front,
    fieldOf_whole, length_slotCharacters, slotCells_slotCharacters (hslot _), flagBits_testBit, *]

/-- A LOAD WATCH entry's characters are as many as its width (R192). -/
theorem length_entryCharacters (w : WatchArgs) : (entryCharacters w).length = w.width := by
  obtain ⟨record, above, below, move⟩ := w
  cases above <;> cases below <;> simp [entryCharacters, WatchArgs.width]

/-- The word of a LOAD WATCH entry: its record number in nine bits, its flags above them (R192). -/
theorem entryWord_testBit {record : Nat} (h : record < 512) (flags : List Bool) (bit : Nat) :
    (record + 512 * flagBits flags).testBit (9 + bit) = flags.getD bit false := by
  rw [Nat.add_comm, show 512 = 2 ^ 9 from rfl, Nat.testBit_two_pow_mul_add _ h, if_neg (by omega), Nat.add_sub_cancel_left,
    flagBits_testBit]

/-- The entries of a LOAD WATCH are read back one after another (R192). -/
theorem parseEntries_entryCharacters {entries : List WatchArgs} (h : ∀ w ∈ entries, w.carried = true) :
    parseEntries entries.length ((entries.map entryCharacters).flatten) = some entries := by
  induction entries with
  | nil => rfl
  | cons w rest ih =>
    obtain ⟨hw, hrest⟩ := List.forall_mem_cons.1 h
    obtain ⟨record, above, below, move⟩ := w
    simp only [WatchArgs.carried, Bool.and_eq_true, decide_eq_true_eq] at hw
    obtain ⟨⟨hrecord, habove⟩, hbelow⟩ := hw
    have hflags := flagBits3_lt above.isSome below.isSome move
    have hword : fits 2 (record + 512 * flagBits [above.isSome, below.isSome, move]) = true := by
      simp only [fits, decide_eq_true_eq]
      omega
    have hread (tail : List Byte) : fieldOf (charactersOf 2 (record + 512 * flagBits [above.isSome, below.isSome, move]) ++ tail) 0 2
        = record + 512 * flagBits [above.isSome, below.isSome, move] := fieldOf_front hword tail
    have h9 := entryWord_testBit hrecord [above.isSome, below.isSome, move] 0
    have h10 := entryWord_testBit hrecord [above.isSome, below.isSome, move] 1
    have h11 := entryWord_testBit hrecord [above.isSome, below.isSome, move] 2
    have hmod : (record + 512 * flagBits [above.isSome, below.isSome, move]) % 512 = record := by omega
    simp only [List.map_cons, List.flatten_cons, List.length_cons, parseEntries, entryCharacters, List.append_assoc, hread, hmod]
    simp only [Nat.reduceAdd] at h9 h10 h11
    have hnext := ih hrest
    generalize (rest.map entryCharacters).flatten = tail at hnext
    have hlong (count : Nat) : ¬ 2 + count < 2 := by omega
    have hlevel (count : Nat) : ¬ 3 + count < 3 := by omega
    have hlevels (count : Nat) : ¬ 3 + (3 + count) < 6 := by omega
    simp only [h9, h10, h11]
    have level {width : Nat} {optional : Option Nat} (hfits : fitsOption width optional = true) :
        ∀ value ∈ optional, fits width value = true := fun value hvalue => by rwa [Option.mem_def.1 hvalue] at hfits
    cases above with
    | none =>
      cases below with
      | none => simp [hnext, hlong]
      | some b => simp [hnext, hlong, hlevel, fieldOf_front (level hbelow b rfl)]
    | some a =>
      cases below with
      | none => simp [hnext, hlong, hlevel, fieldOf_front (level habove a rfl)]
      | some b => simp [hnext, hlong, hlevels, fieldOf_front (level habove a rfl), fieldOf_front (level hbelow b rfl)]

/-- Every command is read back from its number and its body characters (R190, Table 10-3). -/
theorem parseCommand_commandBody {c : Command} (h : c.wellFormed = true) : parseCommand c.number (commandBody c) = some c := by
  cases c with
  | ackRestart | restartKeep | restartClear | pauseBoard | continueBoard | clearCounters => rfl
  | loadSymbol a =>
    have hlength : (commandBody (.loadSymbol a)).length = 23 := by simp [commandBody, length_slotCharacters]
    simp only [Command.number, parseCommand, hlength, if_true, loadArgsOf_commandBody h]
  | addAlias code record =>
    simp only [Command.wellFormed, Bool.and_eq_true] at h
    obtain ⟨hcode, hrecord⟩ := h
    simp [Command.number, parseCommand, commandBody, slice_front, codeOf_codeCharacters hcode, fieldOf_skip, fieldOf_whole hrecord]
  | dropAlias code => simp [Command.number, parseCommand, commandBody, codeOf_codeCharacters h]
  | dropSymbol code => simp [Command.number, parseCommand, commandBody, codeOf_codeCharacters h]
  | setCell panel cell record =>
    simp only [Command.wellFormed, Bool.and_eq_true] at h
    obtain ⟨⟨hpanel, hcell⟩, hrecord⟩ := h
    have hfits : fits 2 (record.getD 65535) = true := by
      cases record with
      | none => decide
      | some r => simp only [cellRecordCarried, decide_eq_true_eq] at hrecord; simp [fits]; omega
    have hnamed : (if record.getD 65535 = 65535 then none else some (record.getD 65535)) = record := by
      cases record with
      | none => rfl
      | some r => simp only [cellRecordCarried, decide_eq_true_eq] at hrecord; exact if_neg (by simp; omega)
    simp [Command.number, parseCommand, commandBody, fieldOf_skip, fieldOf_front, fieldOf_whole, *]
  | setMonitor record m =>
    simp only [Command.wellFormed, MonSettings.carried, Bool.and_eq_true] at h
    obtain ⟨hrecord, ⟨⟨⟨ht, hh⟩, hn⟩, hk⟩⟩ := h
    simp [Command.number, parseCommand, commandBody, fieldOf_skip, fieldOf_front, fieldOf_whole, *]
  | loadWatch station entries =>
    simp only [Command.wellFormed, watchListCarried, Bool.and_eq_true, decide_eq_true_eq, List.all_eq_true] at h
    obtain ⟨hstation, hentries, hlength⟩ := h
    have hcount : fits 1 entries.length = true := by
      have hwidth : entries.length ≤ (entries.map WatchArgs.width).sum := by
        rw [← List.length_map (f := WatchArgs.width)]
        exact List.length_le_sum_of_one_le _ fun width hwidth => by
          obtain ⟨w, -, rfl⟩ := List.mem_map.1 hwidth
          simp only [WatchArgs.width]
          omega
      simp only [fits, decide_eq_true_eq]
      omega
    have hlong : ¬ (commandBody (.loadWatch station entries)).length < 2 := by simp [commandBody]
    have hbody : commandBody (.loadWatch station entries) =
        charactersOf 1 station ++ (charactersOf 1 entries.length ++ (entries.map entryCharacters).flatten) :=
      List.append_assoc ..
    have hstands : fieldOf (commandBody (.loadWatch station entries)) 0 1 = station := by rw [hbody, fieldOf_front hstation]
    have hcounts : fieldOf (commandBody (.loadWatch station entries)) 1 1 = entries.length := by
      rw [hbody, fieldOf_skip (by simp), length_charactersOf, Nat.sub_self, fieldOf_front hcount]
    have hrest : (commandBody (.loadWatch station entries)).drop 2 = (entries.map entryCharacters).flatten := by rw [hbody]; rfl
    simp only [Command.number, parseCommand, if_neg hlong, hstands, hcounts, hrest, parseEntries_entryCharacters hentries]
    rfl
  | clearWatch station => simp [Command.number, parseCommand, commandBody, fieldOf_whole h]
  | setStation station mode interval =>
    simp only [Command.wellFormed, Bool.and_eq_true] at h
    obtain ⟨⟨hstation, hmode⟩, hinterval⟩ := h
    simp [Command.number, parseCommand, commandBody, fieldOf_skip, fieldOf_front, fieldOf_whole, *]
  | setParameter ident value =>
    simp only [Command.wellFormed, Bool.and_eq_true] at h
    simp [Command.number, parseCommand, commandBody, fieldOf_skip, fieldOf_front, fieldOf_whole, h]
  | restorePanel panel => simp [Command.number, parseCommand, commandBody, fieldOf_whole h]
  | queryStatus part => simp [Command.number, parseCommand, commandBody, fieldOf_whole h]
  | queryRecord part record =>
    simp only [Command.wellFormed, Bool.and_eq_true] at h
    simp [Command.number, parseCommand, commandBody, fieldOf_skip, fieldOf_front, fieldOf_whole, h]
  | queryStation part station =>
    simp only [Command.wellFormed, Bool.and_eq_true] at h
    simp [Command.number, parseCommand, commandBody, fieldOf_skip, fieldOf_front, fieldOf_whole, h]
  | queryWatch part station =>
    simp only [Command.wellFormed, Bool.and_eq_true] at h
    simp [Command.number, parseCommand, commandBody, fieldOf_skip, fieldOf_front, fieldOf_whole, h]
  | queryCounters part => simp [Command.number, parseCommand, commandBody, fieldOf_whole h]
  | assign candidate => simp [Command.number, parseCommand, commandBody, fieldOf_whole h]

/-! ### Market messages (Table 10-2) -/

/-- A side of a QUOTE is read back by its flag (R191). -/
theorem sideOf_sideCharacters {flags bit : Nat} {side : Option (Nat × Nat)} (h : sideCarried side = true)
    (hflag : flags.testBit bit = side.isSome) (rest : List Byte) :
    sideOf flags bit (fieldOf (sideCharacters side ++ rest) 0 3) (fieldOf (sideCharacters side ++ rest) 3 2) = side := by
  rw [sideOf, hflag]
  cases side with
  | none => rfl
  | some priced =>
    obtain ⟨price, size⟩ := priced
    simp only [sideCarried, Bool.and_eq_true] at h
    simp [sideCharacters, fieldOf_skip, fieldOf_front, h]

theorem length_sideCharacters (side : Option (Nat × Nat)) : (sideCharacters side).length = 5 := by
  cases side <;> simp [sideCharacters]

/-- Every market message is read back from its kind and its body characters (Tables 10-1 and 10-2). -/
theorem parseMarket_marketBody {m : MarketMsg} (h : m.wellFormed = true) : parseMarket m.kind (marketBody m) = some m := by
  cases m with
  | dayStart => rfl
  | print code price volume condition =>
    simp only [MarketMsg.wellFormed, Bool.and_eq_true] at h
    obtain ⟨⟨⟨hcode, hprice⟩, hvolume⟩, hcondition⟩ := h
    simp [MarketMsg.kind, parseMarket, marketBody, slice_front, codeOf_codeCharacters hcode, fieldOf_skip, fieldOf_front,
      fieldOf_whole, *]
  | quote code bid ask =>
    simp only [MarketMsg.wellFormed, Bool.and_eq_true] at h
    obtain ⟨⟨hcode, hbid⟩, hask⟩ := h
    have hflags := fits_flagBits2 bid.isSome ask.isSome
    have hbids (rest : List Byte) := sideOf_sideCharacters hbid (flagBits_testBit [bid.isSome, ask.isSome] 0) rest
    have hasks := sideOf_sideCharacters hask (flagBits_testBit [bid.isSome, ask.isSome] 1) []
    rw [List.append_nil] at hasks
    simp [MarketMsg.kind, parseMarket, marketBody, slice_front, codeOf_codeCharacters hcode, fieldOf_skip, fieldOf_front,
      length_sideCharacters, *]
  | cancel code sequence price volume =>
    simp only [MarketMsg.wellFormed, Bool.and_eq_true] at h
    obtain ⟨⟨⟨hcode, hsequence⟩, hprice⟩, hvolume⟩ := h
    simp [MarketMsg.kind, parseMarket, marketBody, slice_front, codeOf_codeCharacters hcode, fieldOf_skip, fieldOf_front,
      fieldOf_whole, *]
  | halt code reason =>
    simp only [MarketMsg.wellFormed, Bool.and_eq_true] at h
    obtain ⟨hcode, hreason⟩ := h
    simp [MarketMsg.kind, parseMarket, marketBody, slice_front, codeOf_codeCharacters hcode, fieldOf_skip, fieldOf_whole, *]
  | resume code => simp [MarketMsg.kind, parseMarket, marketBody, codeOf_codeCharacters h]
  | figures code prevClose opening high low volume =>
    simp only [MarketMsg.wellFormed, Bool.and_eq_true] at h
    obtain ⟨⟨⟨⟨⟨hcode, hclose⟩, hopening⟩, hhigh⟩, hlow⟩, hvolume⟩ := h
    have hflags := fits_flagBits4 opening.isSome high.isSome low.isSome volume.isSome
    have present (bit : Nat) {field : Option Nat}
        (hbit : [opening.isSome, high.isSome, low.isSome, volume.isSome].getD bit false = field.isSome) :=
      presentField_getD ((flagBits_testBit [opening.isSome, high.isSome, low.isSome, volume.isSome] bit).trans hbit)
    simp [MarketMsg.kind, parseMarket, marketBody, slice_front, codeOf_codeCharacters hcode, fieldOf_skip, fieldOf_front,
      fieldOf_whole, hflags, hclose, fits_getD hopening, fits_getD hhigh, fits_getD hlow, fits_getD hvolume,
      present 0 rfl, present 1 rfl, present 2 rfl, present 3 rfl]
  | notice text =>
    simp only [MarketMsg.wellFormed, Bool.and_eq_true, decide_eq_true_eq, List.all_eq_true] at h
    obtain ⟨hlength, htext⟩ := h
    simp only [MarketMsg.kind, parseMarket, marketBody, List.length_map, if_pos hlength, map_characterOf htext]
  | session value => simp [MarketMsg.kind, parseMarket, marketBody, fieldOf_whole h]
  | time hours minutes seconds =>
    simp only [MarketMsg.wellFormed, Bool.and_eq_true] at h
    simp [MarketMsg.kind, parseMarket, marketBody, fieldOf_skip, fieldOf_front, fieldOf_whole, h]

/-! ### Whole messages (R162, Table 10-1) -/

section
variable {kind : Nat} {addressing body : List Byte}

theorem length_wholeMessage : (wholeMessage kind addressing body).length = 3 + addressing.length + body.length := by
  simp [wholeMessage]
  omega

/-- The characters of a message in their order: kind, length, addressing, body, check. -/
theorem wholeMessage_eq :
    ∃ check, wholeMessage kind addressing body =
      charactersOf 1 kind ++ (charactersOf 1 (3 + addressing.length + body.length) ++ (addressing ++ (body ++ [check]))) :=
  ⟨- characterSum (BitVec.ofNat 8 kind :: BitVec.ofNat 8 (3 + addressing.length + body.length) :: (addressing ++ body)),
    by simp [wholeMessage, charactersOf]⟩

theorem fieldOf_wholeMessage_kind (h : fits 1 kind = true) : fieldOf (wholeMessage kind addressing body) 0 1 = kind := by
  obtain ⟨check, heq⟩ := wholeMessage_eq (kind := kind) (addressing := addressing) (body := body)
  rw [heq, fieldOf_front h]

theorem fieldOf_wholeMessage_length (h : 3 + addressing.length + body.length < 256) :
    fieldOf (wholeMessage kind addressing body) 1 1 = (wholeMessage kind addressing body).length := by
  obtain ⟨check, heq⟩ := wholeMessage_eq (kind := kind) (addressing := addressing) (body := body)
  have hfits : fits 1 (3 + addressing.length + body.length) = true := by simp only [fits, decide_eq_true_eq]; omega
  rw [length_wholeMessage, heq, fieldOf_skip (by simp), length_charactersOf, Nat.sub_self, fieldOf_front hfits]

/-- A field of the addressing is read where the addressing stands. -/
theorem fieldOf_wholeMessage_addressing {width value : Nat} (h : fits width value = true) (more : List Byte) :
    fieldOf (wholeMessage kind (charactersOf width value ++ more) body) 2 width = value := by
  obtain ⟨check, heq⟩ := wholeMessage_eq (kind := kind) (addressing := charactersOf width value ++ more) (body := body)
  rw [heq, fieldOf_skip (by simp), fieldOf_skip (by simp), length_charactersOf, length_charactersOf, List.append_assoc,
    fieldOf_front h]

theorem bodyOf_wholeMessage {n : Nat} (h : addressing.length = n) : bodyOf n (wholeMessage kind addressing body) = body := by
  obtain ⟨check, heq⟩ := wholeMessage_eq (kind := kind) (addressing := addressing) (body := body)
  rw [bodyOf, heq, ← List.append_assoc, ← List.append_assoc, List.drop_left' (by simp [h]; omega), List.dropLast_concat]

end

/-! ### Command and market messages -/

/-- A command message is 64 characters at most (R190). -/
theorem length_commandBody {c : Command} (h : c.wellFormed = true) : (commandBody c).length ≤ 59 := by
  cases c with
  | loadWatch station entries =>
    simp only [Command.wellFormed, watchListCarried, Bool.and_eq_true, decide_eq_true_eq] at h
    have hwidth : (entries.map entryCharacters).flatten.length = (entries.map WatchArgs.width).sum := by
      rw [List.length_flatten, List.map_map]
      exact congrArg List.sum (List.map_congr_left fun w _ => length_entryCharacters w)
    have hbody : (commandBody (.loadWatch station entries)).length = 2 + (entries.map entryCharacters).flatten.length := by
      simp only [commandBody, List.length_append, length_charactersOf]
    omega
  | _ => simp [commandBody, length_slotCharacters]

theorem commandNumber_fits (c : Command) : fits 1 c.number = true := by cases c <;> rfl

/-- A command message carries its address, its command, its length and a right check (Tables 10-1 and 10-3). -/
theorem commandMessage_read {addr : Nat} {c : Command} (h : c.wellFormed = true) (haddr : addr < 256) :
    commandOf (commandMessage addr c) = some c ∧ fieldOf (commandMessage addr c) 2 1 = addr ∧
      fieldOf (commandMessage addr c) 1 1 = (commandMessage addr c).length ∧ (commandMessage addr c).length ≤ 64 ∧
      characterSum (commandMessage addr c) = 0 ∧ fieldOf (commandMessage addr c) 0 1 = 64 := by
  have hbody := length_commandBody h
  have hlength : (commandMessage addr c).length = 5 + (commandBody c).length := by
    rw [commandMessage, length_wholeMessage]
    simp
  have hfits : fits 1 addr = true := by simp only [fits, decide_eq_true_eq]; omega
  have hnumber : fieldOf (commandMessage addr c) 3 1 = c.number := by
    obtain ⟨check, heq⟩ := wholeMessage_eq (kind := 64) (addressing := charactersOf 1 addr ++ charactersOf 1 c.number)
      (body := commandBody c)
    rw [commandMessage, heq]
    simp [fieldOf_skip, fieldOf_front, commandNumber_fits]
  refine ⟨?_, fieldOf_wholeMessage_addressing hfits _, fieldOf_wholeMessage_length (by simp; omega), by omega,
    characterSum_checked _, fieldOf_wholeMessage_kind (by decide)⟩
  rw [commandOf, if_neg (by omega), hnumber]
  exact (congrArg _ (bodyOf_wholeMessage (by simp))).trans (parseCommand_commandBody h)

theorem length_marketBody {m : MarketMsg} (h : m.wellFormed = true) : (marketBody m).length ≤ 59 := by
  cases m with
  | notice text =>
    simp only [MarketMsg.wellFormed, Bool.and_eq_true, decide_eq_true_eq] at h
    simpa [marketBody] using h.1.2
  | _ => simp [marketBody, length_sideCharacters]

theorem marketKind_range (m : MarketMsg) : 17 ≤ m.kind ∧ m.kind ≤ 26 := by cases m <;> simp [MarketMsg.kind]

/-- A market message carries its kind, its sequence number, its length and a right check (Tables 10-1 and 10-2). -/
theorem marketMessage_read {q : Nat} {m : MarketMsg} (h : m.wellFormed = true) (hq : q ≤ 4095) :
    marketOf (marketMessage q m) = some m ∧ fieldOf (marketMessage q m) 2 2 = q ∧
      fieldOf (marketMessage q m) 1 1 = (marketMessage q m).length ∧ (marketMessage q m).length ≤ 64 ∧
      characterSum (marketMessage q m) = 0 ∧ fieldOf (marketMessage q m) 0 1 = m.kind := by
  have hbody := length_marketBody h
  have hlength : (marketMessage q m).length = 5 + (marketBody m).length := by
    rw [marketMessage, length_wholeMessage]
    simp
  have hfits : fits 2 q = true := by simp only [fits, decide_eq_true_eq]; omega
  have hrange := marketKind_range m
  have hkind : fieldOf (marketMessage q m) 0 1 = m.kind :=
    fieldOf_wholeMessage_kind (by simp only [fits, decide_eq_true_eq]; omega)
  refine ⟨?_, ?_, fieldOf_wholeMessage_length (by simp; omega), by omega, characterSum_checked _, hkind⟩
  · rw [marketOf, if_neg (by omega), hkind]
    exact (congrArg _ (bodyOf_wholeMessage (by simp))).trans (parseMarket_marketBody h)
  · have hread := fieldOf_wholeMessage_addressing (kind := m.kind) (body := marketBody m) hfits []
    rwa [List.append_nil] at hread

end Sys2Proof.Machine
end


section
/-! PROOF. Command messages and market messages received whole while LOCKED (R167, R171, R172, R179, R180). -/

namespace Sys2Proof.Machine

/-! ### A command message (O25) -/

/-- A message that a last character completes is as long as its length character says (R162). -/
theorem State.completedBy_of_message {s : State} {bytes front : List Byte} {last : Byte} (heq : bytes = front ++ [last])
    (hlong : 5 ≤ bytes.length) (hlength : fieldOf bytes 1 1 = bytes.length) (harriving : s.feed.arriving = queued front)
    (hroom : s.feed.forwardCount < 512) : s.completedBy front := by
  subst heq
  rw [List.length_append, List.length_singleton] at hlong hlength
  match front, hlong with
  | kind :: length :: more, _ =>
    refine ⟨harriving, hroom, kind, length, more, rfl, ?_⟩
    have hread : fieldOf (kind :: length :: more ++ [last]) 1 1 = length.toNat := by simp [fieldOf, slice, numberOf]
    rw [← hread, hlength]
    rfl

/-- The newest message is replaced at its place when it is the ASSIGN taken (R179). -/
theorem Repeater.replaceAssign_newest {f : Repeater} {earlier : List (List FeedChar)} {n : Nat}
    (h : f.forward = earlier ++ [assignMessage n]) :
    f.replaceAssign n = { f with forward := earlier ++ [assignMessage (n + 1)] } := by
  have hnewest : f.forward.getLast? = some (assignMessage n) := by rw [h, List.getLast?_concat]
  rw [Repeater.replaceAssign, if_pos hnewest, h, List.dropLast_concat]

/-- An ASSIGN that has just joined the forward queue is replaced character for character (R179). -/
theorem State.passAssign_newest {s : State} {n : Nat}
    (h : (s.forwardMessage (commandMessage 0 (.assign n))).takesCandidate n = true) :
    ((s.forwardMessage (commandMessage 0 (.assign n))).passAssign n).feed.forwardCount =
      (s.forwardMessage (commandMessage 0 (.assign n))).feed.forwardCount := by
  have hreplaced := Repeater.replaceAssign_newest
    (show (s.forwardMessage (commandMessage 0 (.assign n))).feed.forward = s.feed.forward ++ [assignMessage n] from rfl)
  have hfeed : ((s.forwardMessage (commandMessage 0 (.assign n))).passAssign n).feed =
      (s.forwardMessage (commandMessage 0 (.assign n))).feed.replaceAssign n := by
    rw [State.passAssign, if_pos h]
    rfl
  have hcount (n : Nat) : ((s.feed.forward ++ [assignMessage n]).map List.length).sum =
      (s.feed.forward.map List.length).sum + 7 := by simp [length_assignMessage]
  rw [hfeed, hreplaced, Repeater.forwardCount, Repeater.forwardCount]
  exact congrArg (· + _) ((hcount (n + 1)).trans (hcount n).symm)

/-- Address 0 is no unit's: a command that carries it is not acted on, ASSIGN apart (R167). -/
theorem State.passCommand_zero (s : State) (deal : Route → State → State) : s.passCommand 0 deal = s := by
  rw [State.passCommand, if_neg (by decide), if_neg (by simp [State.ownAddress])]

section
variable {s : State} {addr : Nat} {c : Command}

/-- A command message of this unit that finds a place free is dealt with, and leaves the forward queue (R167). -/
theorem State.examine_taken (hc : c.wellFormed = true) (haddr : addr < 256)
    (htaken : (s.ownAddress addr && s.feed.placeFree) = true) :
    s.examine (commandMessage addr c) = s.passCommand addr (dealCommand c) := by
  obtain ⟨hcommand, hread, -, -, -, hkind⟩ := commandMessage_read hc haddr
  have hnone : addr ≠ 0 := fun h => by simp [State.ownAddress, h] at htaken
  have hdeal : dealMessage (commandMessage addr c) = dealCommand c := by
    funext route t
    rw [dealMessage, hcommand]
  simp only [State.examine, hkind, State.examineCommand, hread, if_neg hnone, htaken, hdeal]
  rfl

/-- Every other command message is forwarded, and then its row's own (R167, R179). -/
theorem State.examine_passed (hc : c.wellFormed = true) (haddr : addr < 256)
    (htaken : (s.ownAddress addr && s.feed.placeFree) = false)
    (hroom : (s.forwardMessage (commandMessage addr c)).feed.forwardCount ≤ 512) :
    exec (commandRow addr c) (s.forwardMessage (commandMessage addr c)) = .next (s.examine (commandMessage addr c)) := by
  obtain ⟨hcommand, hread, -, -, -, hkind⟩ := commandMessage_read hc haddr
  have hdeal : dealMessage (commandMessage addr c) = dealCommand c := by
    funext route t
    rw [dealMessage, hcommand]
  have hrest (h0 : addr ≠ 0) : s.examine (commandMessage addr c) =
      (s.forwardMessage (commandMessage addr c)).passCommand addr (dealCommand c) := by
    simp only [State.examine, hkind, State.examineCommand, hread, if_neg h0, htaken, hdeal]
    rfl
  by_cases h0 : addr = 0
  · subst h0
    cases c with
    | assign n =>
      have hexamined : s.examine (commandMessage 0 (.assign n)) =
          (s.forwardMessage (commandMessage 0 (.assign n))).passAssign n := by
        simp only [State.examine, hkind, State.examineCommand, hread, hcommand]
        rfl
      rw [hexamined]
      exact exec_assign fun htakes => (State.passAssign_newest htakes).trans_le hroom
    | _ =>
      rw [exec_commandRow 0 _ _ (by intro _ n h; cases h), State.passCommand_zero]
      simp only [State.examine, hkind, State.examineCommand, hread, hcommand]
      rfl
  · rw [hrest h0, exec_commandRow addr c _ fun h => absurd h h0]

end

/-- A whole message forwarded after its last character has come takes no place above those it found (R165, R166). -/
theorem State.forwarded_count {s : State} {bytes front : List Byte} {last : Byte} (heq : bytes = front ++ [last])
    (harriving : s.feed.arriving = queued front) (hroom : s.feed.forwardCount < 512) :
    (s.forwarded bytes).feed.forwardCount ≤ 512 := by
  have hsent := Repeater.sendCharacter_count s.feed
  have hstill : s.feed.sendCharacter.arriving = queued front := (Repeater.sendCharacter_arriving s.feed).trans harriving
  have hcount : (s.forwarded bytes).feed.forwardCount =
      (s.feed.sendCharacter.forward.map List.length).sum + (queued bytes).length := by
    simp [State.forwarded, State.arrived, State.noteArrival, Repeater.arrivalNoted, Repeater.forwardCount]
  rw [hcount, heq, length_queued, List.length_append, List.length_singleton]
  rw [Repeater.forwardCount, hstill, length_queued] at hsent
  omega

/-- Settles O25: the message examined as it arrived, taken or passed by its address and the places free. -/
theorem commandMessageActsAsItsRow : Obligations.CommandMessageActsAsItsRow := by
  intro addr c front last s haddr hc heq hlock harriving hroom examined
  obtain ⟨-, -, hlength, -, hcheck, -⟩ := commandMessage_read hc haddr
  have hlong : 5 ≤ (commandMessage addr c).length := by
    rw [commandMessage, length_wholeMessage]
    simp
  have hcompleted := State.completedBy_of_message heq hlong hlength harriving hroom
  let quiet : State := { s.arrived with feed := { s.arrived.feed with faultRun := 0 } }
  have hreceived : exec (.feedMessageReceived last) s = .next (quiet.examine (commandMessage addr c)) := by
    rw [exec_feedMessageReceived s front last hcompleted, ← heq,
      State.receiveWhole_locked ((Repeater.sendCharacter_lock s.feed).trans hlock) hcheck]
  refine ⟨?_, _, hreceived⟩
  rw [hreceived]
  by_cases htaken : (s.ownAddress addr && s.arrived.feed.placeFree) = true
  · have hexamined : examined = s.arrived := if_pos htaken
    have hassign : addr = 0 → ∀ n, c ≠ .assign n := fun h => by simp [State.ownAddress, h] at htaken
    rw [hexamined, State.examine_taken (s := quiet) hc haddr htaken, exec_commandRow addr c _ hassign]
  · have hexamined : examined = s.forwarded (commandMessage addr c) := if_neg htaken
    rw [hexamined]
    exact (State.examine_passed (s := quiet) hc haddr (Bool.eq_false_iff.2 htaken)
      (State.forwarded_count heq harriving hroom)).symm

/-! ### Market messages (O26) -/

section
variable {s : State} {bytes : List Byte}

/-- A message of a market kind is forwarded and handed to intake (R167). -/
theorem State.examine_market (h : isMarketKind (fieldOf bytes 0 1) = true) :
    s.examine bytes = (s.forwardMessage bytes).handToIntake bytes := by
  simp only [State.examine, h, if_true]

/-- The sequence check of a message in range that agrees with its kind (R171). -/
theorem State.handToIntake_checks {m : MarketMsg} {q : Nat} (hm : marketOf bytes = some m) (hq : fieldOf bytes 2 2 = q)
    (hrange : q ≤ 4095) : s.handToIntake bytes = s.checkSequence q m := by
  simp only [State.handToIntake, hm, hq, if_pos hrange]

/-- One that does not agree with its kind, or is numbered out of range, is malformed (R171, R191). -/
theorem State.handToIntake_malformed (h : marketOf bytes = none ∨ 4095 < fieldOf bytes 2 2) :
    s.handToIntake bytes = s.countMalformed := by
  unfold State.handToIntake
  split
  · rfl
  · next m hm => rw [if_neg (not_le.2 (h.resolve_left fun hn => nomatch hm.symm.trans hn))]

/-- Table 8-2 by the distance past the expectation. -/
theorem State.checkSequence_first {q : Nat} {m : MarketMsg} (h : s.intake.expectation = none) :
    s.checkSequence q m = s.acceptMessage q m := by simp only [State.checkSequence, h]

theorem State.checkSequence_next {q e : Nat} {m : MarketMsg} (h : s.intake.expectation = some e)
    (hd : sequenceDistance q e = 1) : s.checkSequence q m = s.acceptMessage q m := by
  simp only [State.checkSequence, h, hd]
  rfl

theorem State.checkSequence_gap {q e : Nat} {m : MarketMsg} (h : s.intake.expectation = some e)
    (hlow : 2 ≤ sequenceDistance q e) (hhigh : sequenceDistance q e ≤ 2047) :
    s.checkSequence q m = (s.countGap (sequenceDistance q e - 1)).acceptMessage q m := by
  simp only [State.checkSequence, h]
  rw [if_neg (by omega), if_neg (by omega)]

theorem State.checkSequence_behind {q e : Nat} {m : MarketMsg} (h : s.intake.expectation = some e)
    (hd : sequenceDistance q e = 0 ∨ 2048 ≤ sequenceDistance q e) : s.checkSequence q m = s.countDuplicate := by
  simp only [State.checkSequence, h, if_pos hd]

end

/-- Settles O26: a message handed to intake and sequence-checked by Table 8-2, or malformed. -/
theorem marketMessageIsSequenceChecked : Obligations.MarketMessageIsSequenceChecked := by
  refine ⟨?_, ?_⟩
  · intro q m front last s hq hm heq hlock harriving hroom passed accepted gap ignored
    obtain ⟨hmarket, hread, hlength, -, hcheck, hkind⟩ := marketMessage_read hm hq
    have hlong : 5 ≤ (marketMessage q m).length := by
      rw [marketMessage, length_wholeMessage]
      simp
    have hcompleted := State.completedBy_of_message heq hlong hlength harriving hroom
    have hexec : exec (.feedMessageReceived last) s = .next (passed.checkSequence q m) := by
      rw [exec_feedMessageReceived s front last hcompleted, ← heq,
        State.receiveWhole_locked ((Repeater.sendCharacter_lock s.feed).trans hlock) hcheck,
        State.examine_market (by rw [hkind]; exact (isMarketKind_iff _).2 (marketKind_range m)),
        State.handToIntake_checks hmarket hread hq]
      rfl
    rw [hexec]
    refine ⟨fun hnone => ?_, ?_⟩
    · rw [State.checkSequence_first (s := passed) hnone]
      rfl
    · intro e he hrange d
      have hd : sequenceDistance q e = d := by
        rw [sequenceDistance, Nat.mod_eq_of_lt (show e < 4096 by omega)]
      refine ⟨fun hone => ?_, fun hlow hhigh => ?_, fun hbehind => ?_⟩
      · rw [State.checkSequence_next (s := passed) he (hd.trans hone)]
        rfl
      · rw [State.checkSequence_gap (s := passed) he (hd ▸ hlow) (hd ▸ hhigh), hd]
        rfl
      · rw [State.checkSequence_behind (s := passed) he (hd ▸ hbehind)]
        rfl
  · intro kind length more last s hcompleted bytes hlock hcheck hlow hhigh hmalformed
    have hkind : fieldOf bytes 0 1 = kind.toNat := fieldOf_kind kind _
    have hexamined : exec (.feedMessageReceived last) s = .next (s.arrived.receiveWhole bytes) :=
      exec_feedMessageReceived s _ last hcompleted
    rw [hexamined, State.receiveWhole_locked ((Repeater.sendCharacter_lock s.feed).trans hlock) hcheck,
      State.examine_market (by rw [hkind]; exact (isMarketKind_iff _).2 ⟨hlow, hhigh⟩),
      State.handToIntake_malformed hmalformed]
    rfl

end Sys2Proof.Machine
end


section
/-! PROOF. The characters of replies and of desk frames (section 10.4, R128, R135, R190, R193), and what the manual's characters
read back as (O54). -/

namespace Sys2Proof.Machine

/-! ### Replies (R190) -/

/-- A reply message carries its address, echo, status and body behind kind 65 (R180, R190). -/
theorem Reply.message_read {r : Reply} (haddr : r.address < 256) (hecho : r.echo < 256) (hbody : r.body.characters.length ≤ 58) :
    fieldOf r.message 0 1 = 65 ∧ fieldOf r.message 1 1 = r.message.length ∧ r.message.length ≤ 64 ∧
      fieldOf r.message 2 1 = r.address ∧ fieldOf r.message 3 1 = r.echo ∧ fieldOf r.message 4 1 = r.status.number ∧
      bodyOf 3 r.message = r.body.characters ∧ characterSum r.message = 0 ∧ r.characters = .flag :: r.message.map .data := by
  have haddress : fits 1 r.address = true := decide_eq_true haddr
  have hechoed : fits 1 r.echo = true := decide_eq_true hecho
  have hstatus : fits 1 r.status.number = true := by cases r.status <;> rfl
  have hlength : r.message.length = 6 + r.body.characters.length := by
    rw [Reply.message, length_wholeMessage]
    simp [one]
  obtain ⟨check, heq⟩ := wholeMessage_eq (kind := 65) (addressing := one r.address ++ one r.echo ++ one r.status.number)
    (body := r.body.characters)
  have hread : r.message = _ := heq
  simp only [one, List.append_assoc] at hread
  refine ⟨fieldOf_wholeMessage_kind rfl, fieldOf_wholeMessage_length (by simp [one]; omega), by omega, ?_, ?_, ?_,
    bodyOf_wholeMessage (by simp [one]), characterSum_checked _, rfl⟩
  · rw [hread]
    simp [fieldOf_skip, fieldOf_front, haddress]
  · rw [hread]
    simp [fieldOf_skip, fieldOf_front, hechoed]
  · rw [hread]
    simp [fieldOf_skip, fieldOf_front, hstatus]

/-- Every query's body is one that its rule renders (Table 10-4). -/
theorem queryBody_rendered {part n : Nat} {q : QuoteRecord} {st : Station} {body : ReplyBody} {s : State}
    (hpanels : s.board.panels.length = 4) (hring : q.ring.length ≤ 4)
    (h : s.statusPart part = some body ∨ s.recordPart q part = some body ∨ s.stationPart n st part = some body ∨
      s.watchPart st part = some body ∨ body = .counters s.counters) : body.rendered := by
  rcases h with h | h | h | h | rfl
  · unfold State.statusPart at h
    split at h <;> cases h
    case h_3 => exact hpanels
    all_goals trivial
  · unfold State.recordPart at h
    split at h <;> cases h
    case h_3 => exact hring
    all_goals trivial
  · unfold State.stationPart at h
    split at h <;> cases h
    all_goals trivial
  · exact State.watchPart_rendered h
  · trivial

/-! ### Frames (section 10.4) -/

theorem frame_eq (type : Nat) (fields : List Byte) :
    ∃ check, frame type fields = BitVec.ofNat 8 type :: (fields ++ [check]) ∧ characterSum (frame type fields) = 0 :=
  ⟨_, rfl, characterSum_checked _⟩

/-- What can be read of characters that all arrived, or of those before one that did not (R193). -/
theorem readable_append {tail : List (Option Byte)} (h : tail = [] ∨ tail.head? = some none) (bytes : List Byte) :
    readable (bytes.map some ++ tail) = bytes := by
  induction bytes with
  | nil =>
    rcases h with rfl | h
    · rfl
    · match tail, h with
      | none :: _, _ => rfl
  | cons b rest ih => exact congrArg (b :: ·) ih

theorem readable_whole (bytes : List Byte) : readable (bytes.map some) = bytes := by
  have h := readable_append (Or.inl rfl) bytes
  rwa [List.append_nil] at h

/-- A frame of as many characters as its type calls for is read whole (R193). -/
theorem wholeFrame_whole {bytes : List Byte} (h : frameLength bytes.length bytes = some bytes.length) :
    wholeFrame (bytes.map some) = some bytes := by
  rw [wholeFrame, readable_whole, List.length_map]
  simp only [h, le_refl, if_true, List.take_length]

/-! ### Request frames (R128, R193) -/

/-- The characters of a request frame: type 12, echo, kind, arguments and check (section 10.4). -/
theorem requestFrame_eq (echo kind : Nat) (arguments : List Byte) :
    ∃ check, requestFrame echo kind arguments =
      12#8 :: BitVec.ofNat 8 echo :: BitVec.ofNat 8 kind :: (arguments ++ [check]) := by
  obtain ⟨check, heq, -⟩ := frame_eq 12 (charactersOf 1 echo ++ charactersOf 1 kind ++ arguments)
  exact ⟨check, heq.trans (by simp [charactersOf])⟩

section
variable {row : Instr}

/-- A request of the six is of a kind that its row is read back from (section 10.4). -/
theorem requestRow_requestFields (hrow : row.wellFormed = true) (h : (requestFields row).1 ≠ 0) :
    requestRow (requestFields row).1 (requestFields row).2 = row := by
  cases row with
  | quoteRequest code => simp [requestFields, requestRow, slice_whole, codeOf_codeCharacters hrow]
  | recent code => simp [requestFields, requestRow, slice_whole, codeOf_codeCharacters hrow]
  | watchPage => rfl
  | watchAdd code above below move =>
    simp only [Instr.wellFormed, Bool.and_eq_true] at hrow
    obtain ⟨⟨hcode, habove⟩, hbelow⟩ := hrow
    have hflags : fits 1 (flagBits [above.isSome, below.isSome, move]) = true :=
      decide_eq_true ((flagBits3_lt _ _ _).trans (by decide))
    have hbit := flagBits_testBit [above.isSome, below.isSome, move]
    have hlevels (tail : List Byte) : (codeCharacters code ++
        (charactersOf 1 (flagBits [above.isSome, below.isSome, move]) ++ tail)).drop 6 = tail := by
      rw [← List.append_assoc, List.drop_left' (by simp)]
    simp only [requestFields, requestRow, List.append_assoc]
    simp only [slice_front (length_codeCharacters code), codeOf_codeCharacters hcode, hlevels,
      fieldOf_skip (length_codeCharacters code).le, length_codeCharacters, Nat.sub_self, fieldOf_front hflags, hbit]
    have level {optional : Option Nat} (hfits : fitsOption 3 optional = true) :
        ∀ value ∈ optional, fits 3 value = true := fun value hvalue => by rwa [Option.mem_def.1 hvalue] at hfits
    cases above with
    | none =>
      cases below with
      | none => simp
      | some b => simp [fieldOf_whole (level hbelow b rfl)]
    | some a =>
      cases below with
      | none => simp [fieldOf_whole (level habove a rfl)]
      | some b => simp [fieldOf_front (level habove a rfl), fieldOf_whole (level hbelow b rfl)]
  | watchDrop code => simp [requestFields, requestRow, slice_whole, codeOf_codeCharacters hrow]
  | setMode mode interval =>
    simp only [Instr.wellFormed, Bool.and_eq_true] at hrow
    simp [requestFields, requestRow, fieldOf_front, fieldOf_skip, fieldOf_whole, hrow]
  | _ => exact absurd rfl h

/-- A WATCH ADD calls for the characters of the levels that its flags name (R193). -/
theorem requestLength_watchAdd (arrived : Nat) (code : Code) (above below move : Bool) (tail : List Byte) :
    requestLength arrived 4 (codeCharacters code ++ (charactersOf 1 (flagBits [above, below, move]) ++ tail)) =
      some (10 + (if above then 3 else 0) + (if below then 3 else 0)) := by
  have hflags : (BitVec.ofNat 8 (flagBits [above, below, move])).toNat = flagBits [above, below, move] := by
    rw [BitVec.toNat_ofNat, Nat.mod_eq_of_lt ((flagBits3_lt _ _ _).trans (by decide))]
  have hcharacter : charactersOf 1 (flagBits [above, below, move]) = [BitVec.ofNat 8 (flagBits [above, below, move])] := by
    simp [charactersOf]
  simp only [requestLength, List.drop_left' (length_codeCharacters code), hcharacter, List.cons_append, hflags, flagBits_testBit]
  rfl

/-- A request that has come whole is as long as its row calls for (R193). -/
theorem requestLength_whole (h : (requestFields row).1 ≠ 0) (arrived : Nat) (check : Byte) :
    requestLength arrived (requestFields row).1 ((requestFields row).2 ++ [check]) =
      some (4 + (requestFields row).2.length) := by
  cases row with
  | watchAdd code above below move =>
    simp only [requestFields, List.append_assoc, requestLength_watchAdd]
    cases above <;> cases below <;> simp
  | quoteRequest | recent | watchDrop => simp [requestFields, requestLength]
  | watchPage | setMode => rfl
  | _ => exact absurd rfl h

/-- However much of a request has come, its length is not yet known or is the one that its row has (R193). -/
theorem requestLength_prefix (h : (requestFields row).1 ≠ 0) (arrived count : Nat) (check : Byte) :
    requestLength arrived (requestFields row).1 (((requestFields row).2 ++ [check]).take count) = none ∨
      requestLength arrived (requestFields row).1 (((requestFields row).2 ++ [check]).take count) =
        some (4 + (requestFields row).2.length) := by
  cases row with
  | watchAdd code above below move =>
    simp only [requestFields, List.append_assoc]
    by_cases hfew : count ≤ 5
    · refine Or.inl ?_
      simp only [requestLength]
      rw [List.drop_eq_nil_of_le ((List.length_take_le _ _).trans hfew)]
    · refine Or.inr ?_
      rw [List.take_append, List.take_of_length_le (by rw [length_codeCharacters]; omega), List.take_append,
        List.take_of_length_le (by rw [length_charactersOf, length_codeCharacters]; omega), requestLength_watchAdd]
      cases above <;> cases below <;> simp
  | quoteRequest | recent | watchDrop => exact Or.inr (by simp [requestFields, requestLength])
  | watchPage | setMode => exact Or.inr rfl
  | _ => exact absurd rfl h

theorem requestFields_kind (row : Instr) : fits 1 (requestFields row).1 = true := by cases row <;> rfl

/-- The characters of a request frame that a station sends, and their number. -/
theorem stationRequest_eq (echo : Nat) (row : Instr) :
    ∃ check, stationRequest echo row = 12#8 :: BitVec.ofNat 8 echo :: BitVec.ofNat 8 (requestFields row).1 ::
      ((requestFields row).2 ++ [check]) ∧ (stationRequest echo row).length = 4 + (requestFields row).2.length := by
  obtain ⟨check, heq⟩ := requestFrame_eq echo (requestFields row).1 (requestFields row).2
  refine ⟨check, heq, ?_⟩
  rw [stationRequest, heq]
  simp
  omega

/-- The kind character of a request frame is its kind's number. -/
theorem toNat_requestKind (row : Instr) : (BitVec.ofNat 8 (requestFields row).1).toNat = (requestFields row).1 := by
  have hkind := requestFields_kind row
  simp only [fits, decide_eq_true_eq] at hkind
  rw [BitVec.toNat_ofNat]
  exact Nat.mod_eq_of_lt hkind

/-- A request frame that has come whole is read whole (R193). -/
theorem wholeFrame_stationRequest (h : (requestFields row).1 ≠ 0) (echo : Nat) :
    wholeFrame ((stationRequest echo row).map some) = some (stationRequest echo row) := by
  refine wholeFrame_whole ?_
  obtain ⟨check, heq, hlength⟩ := stationRequest_eq echo row
  rw [hlength, heq]
  simp only [frameLength, if_true, toNat_requestKind]
  exact requestLength_whole h _ check

/-- A request frame cut anywhere, at its end or by an unreadable character, is not whole (R135, R193). -/
theorem wholeFrame_cut (h : (requestFields row).1 ≠ 0) (echo : Nat) {count : Nat} {tail : List (Option Byte)}
    (hcount : count < (stationRequest echo row).length) (htail : tail = [] ∨ tail.head? = some none) :
    wholeFrame (((stationRequest echo row).take count).map some ++ tail) = none := by
  obtain ⟨check, heq, hlength⟩ := stationRequest_eq echo row
  have hcalls (arrived : Nat) : frameLength arrived ((stationRequest echo row).take count) = none ∨
      frameLength arrived ((stationRequest echo row).take count) = some (stationRequest echo row).length := by
    rw [hlength, heq]
    match count with
    | 0 => exact Or.inl rfl
    | 1 => exact Or.inl rfl
    | 2 => exact Or.inl rfl
    | more + 3 =>
      simp only [List.take_succ_cons, frameLength, if_true, toNat_requestKind]
      exact requestLength_prefix h arrived more check
  rw [wholeFrame, readable_append htail]
  rcases hcalls (((stationRequest echo row).take count).map some ++ tail).length with hnone | hsome
  · rw [hnone]
  · have hshort : ¬ (stationRequest echo row).length ≤ ((stationRequest echo row).take count).length := by
      rw [List.length_take]
      omega
    simp only [hsome, if_neg hshort]

/-- The parts of a request frame that its row and the echo are read from (R128). -/
theorem requestRow_stationRequest (hrow : row.wellFormed = true) (h : (requestFields row).1 ≠ 0) {echo : Nat} (hecho : echo < 256) :
    fieldOf (stationRequest echo row) 1 1 = echo ∧
      requestRow (fieldOf (stationRequest echo row) 2 1) ((stationRequest echo row).drop 3).dropLast = row := by
  obtain ⟨check, heq, -⟩ := stationRequest_eq echo row
  have hread : fieldOf (stationRequest echo row) 2 1 = (requestFields row).1 := by
    rw [heq, ← toNat_requestKind row]
    simp [fieldOf, slice, numberOf]
  have hrest : ((stationRequest echo row).drop 3).dropLast = (requestFields row).2 := by
    rw [heq]
    exact List.dropLast_concat
  refine ⟨?_, by rw [hread, hrest, requestRow_requestFields hrow h]⟩
  rw [heq]
  simp [fieldOf, slice, numberOf, Nat.mod_eq_of_lt hecho]

end

section
variable {s : State} {slot : Nat}

/-- A frame that starts with type 12 is a request (section 10.4). -/
theorem State.frameRow_request {row : Instr} (h : (requestFields row).1 ≠ 0) (echo : Nat) :
    s.frameRow slot ((stationRequest echo row).map some) = s.requestFrameRow (stationRequest echo row) := by
  obtain ⟨check, heq, -⟩ := stationRequest_eq echo row
  have hhead : (stationRequest echo row).head? = some 12#8 := by rw [heq]; rfl
  simp only [State.frameRow, wholeFrame_stationRequest h, hhead]
  rfl

/-- A request frame with the right echo is its row, and one with a wrong echo is CHECK ERROR (R128). -/
theorem State.frameRow_stationRequest {row : Instr} (hrow : row.wellFormed = true) (h : (requestFields row).1 ≠ 0) {echo : Nat}
    (hecho : echo < 256) :
    ((∀ u, s.desk.transaction = some u → u.station = echo) →
        s.frameRow slot ((stationRequest echo row).map some) = row) ∧
      (∀ u, s.desk.transaction = some u → u.station ≠ echo →
        s.frameRow slot ((stationRequest echo row).map some) = .checkError) := by
  obtain ⟨hread, hrequest⟩ := requestRow_stationRequest hrow h hecho
  have hsum : characterSum (stationRequest echo row) = 0 := characterSum_checked _
  rw [State.frameRow_request h, State.requestFrameRow, hread, hsum, hrequest]
  refine ⟨fun hright => ?_, fun u hu hwrong => ?_⟩
  · cases hu : s.desk.transaction with
    | none => simp
    | some u => simp [hright u hu]
  · have hother : ¬ echo = u.station := fun hh => hwrong hh.symm
    simp [hu, hother]

/-! ### The station's other frames and the part's own (section 10.4) -/

/-- The number that a short frame carries. -/
theorem fieldOf_frame {n : Nat} (h : n < 256) (type : Nat) : fieldOf (frame type (charactersOf 1 n)) 1 1 = n := by
  obtain ⟨check, heq, -⟩ := frame_eq type (charactersOf 1 n)
  rw [heq]
  simp [charactersOf, fieldOf, slice, numberOf, Nat.mod_eq_of_lt h]

/-- SLOT ANSWER, ANSWER, READY and RECEIPT by their types (R193). -/
theorem State.frameRow_short {n : Nat} (h : n < 256) :
    s.frameRow slot ((frame 9 (charactersOf 1 n)).map some) = .slotAnswer slot ∧
      s.frameRow slot ((frame 10 (charactersOf 1 n)).map some) = .answer n ∧
      s.frameRow slot ((frame 11 (charactersOf 1 n)).map some) = .ready n ∧
      s.frameRow slot ((frame 13 (charactersOf 1 n)).map some) = .receipt n := by
  have whole (type : Nat) (htype : frameLength 3 (frame type (charactersOf 1 n)) = some 3) :
      wholeFrame ((frame type (charactersOf 1 n)).map some) = some (frame type (charactersOf 1 n)) := wholeFrame_whole htype
  have hnumber := fieldOf_frame h
  refine ⟨?_, ?_, ?_, ?_⟩
  · simp only [State.frameRow, whole 9 rfl]
    rfl
  · simp only [State.frameRow, whole 10 rfl, hnumber]
    rfl
  · simp only [State.frameRow, whole 11 rfl, hnumber]
    rfl
  · simp only [State.frameRow, whole 13 rfl, hnumber]
    rfl

/-- A frame of a type that is none of the station's is not whole (R193). -/
theorem State.frameRow_unknown {type : Byte} (h : type.toNat < 9 ∨ 13 < type.toNat) (later : List (Option Byte)) :
    s.frameRow slot (some type :: later) = .deskFrameIncomplete := by
  have hother (known : Byte) (hlow : 9 ≤ known.toNat) (hhigh : known.toNat ≤ 13) : type ≠ known := by
    rintro rfl
    omega
  have hnone : wholeFrame (some type :: later) = none := by
    have hlength : frameLength (some type :: later).length (readable (some type :: later)) = none := by
      simp only [readable, frameLength]
      rw [if_neg (hother 12#8 (by decide) (by decide)), if_neg]
      rintro (h | h | h | h) <;> exact hother _ (by decide) (by decide) h
    rw [wholeFrame, hlength]
  simp only [State.frameRow, hnone]

/-- Every frame of the part's is a frame with its check (section 10.4). -/
theorem State.deskFrame_sum {f : List Byte} (h : s.deskFrame = some f) : characterSum f = 0 := by
  unfold State.deskFrame at h
  split at h
  · split at h <;> cases h
    exact characterSum_checked _
  · split at h
    · cases h
      exact characterSum_checked _
    · cases h
      exact characterSum_checked _
    · cases h
    · cases h
      exact characterSum_checked _
    · split at h
      · cases h
        exact characterSum_checked _
      · split at h
        · split at h <;> cases h <;> exact characterSum_checked _
        · cases h

/-- The frame of a transaction that is sending, by what it sends (R129 to R131, R138). -/
theorem State.deskFrame_output {u : Transaction} (h : s.desk.transaction = some u) (l : Line) :
    (u.output = .line l → s.deskFrame = some (lineFrame u.station l)) ∧
      (u.output = .ending false → s.deskFrame = some (frame 7 [])) ∧
      (u.output = .ending true → s.deskFrame = some (frame 8 [])) ∧
      (u.output = .receiptAwaited → s.deskFrame = none) ∧
      (∀ causing, u.output = .suspending causing → s.deskFrame = some (frame 5 (charactersOf 1 u.station))) := by
  refine ⟨fun ho => ?_, fun ho => ?_, fun ho => ?_, fun ho => ?_, fun causing ho => ?_⟩ <;>
    simp only [State.deskFrame, h, ho] <;> rfl

/-- The frame of one that sends nothing yet, by the line state (R126, R131, R139). -/
theorem State.deskFrame_calling {u : Transaction} (h : s.desk.transaction = some u) (ho : u.output = .nothing) :
    (s.desk.line = .selecting → s.deskFrame = some (frame 2 (charactersOf 1 u.station))) ∧
      (s.desk.line = .reselecting →
        (∀ reply, u.kind = .resumption reply → s.deskFrame = some (frame 4 (charactersOf 1 u.station))) ∧
        ((∀ reply, u.kind ≠ .resumption reply) → s.deskFrame = some (frame 3 (charactersOf 1 u.station)))) ∧
      (s.desk.line ≠ .selecting → s.desk.line ≠ .reselecting → s.deskFrame = none) := by
  refine ⟨fun hline => ?_, fun hline => ⟨fun reply hkind => ?_, fun hkind => ?_⟩, fun hsel hres => ?_⟩
  · simp only [State.deskFrame, h, ho, hline, if_true]
  · simp only [State.deskFrame, h, ho, hline, hkind]
    rfl
  · simp only [State.deskFrame, h, ho, hline]
    cases hu : u.kind with
    | resumption reply => exact absurd hu (hkind reply)
    | _ => rfl
  · simp only [State.deskFrame, h, ho, if_neg hsel, if_neg hres]

end

/-- A LINE frame carries its station, its number, its STALE bit and its text (section 10.4). -/
theorem lineFrame_read {n : Nat} (h : n < 256) (l : Line) :
    slice (lineFrame n l) 4 40 = l.text.map boardCharacter ∧
      ((lineFrame n l).length = 45 ∧ fieldOf (lineFrame n l) 0 1 = 6 ∧ fieldOf (lineFrame n l) 1 1 = n ∧
        (l.number < 256 → fieldOf (lineFrame n l) 2 1 = l.number) ∧
        (fieldOf (lineFrame n l) 3 1 = if l.stale then 1 else 0) ∧ characterSum (lineFrame n l) = 0) := by
  have htext : (l.text.map boardCharacter).length = 40 := by simp [Line.text]
  obtain ⟨check, heq, hsum⟩ := frame_eq 6 (charactersOf 1 n ++ charactersOf 1 l.number ++ charactersOf 1 (flagBits [l.stale]) ++
    l.text.map boardCharacter)
  have hread : lineFrame n l = charactersOf 1 6 ++ (charactersOf 1 n ++ (charactersOf 1 l.number ++
      (charactersOf 1 (flagBits [l.stale]) ++ (l.text.map boardCharacter ++ [check])))) := by
    rw [lineFrame, heq]
    simp [charactersOf]
  have hfits : fits 1 n = true := decide_eq_true h
  have hflag : flagBits [l.stale] = if l.stale then 1 else 0 := by cases l.stale <;> rfl
  refine ⟨?_, ?_, ?_, ?_, fun hnumber => ?_, ?_, hsum⟩
  · rw [hread]
    simp [slice_skip, slice_front, htext]
  · rw [hread]
    simp [htext]
  · rw [hread, fieldOf_front rfl]
  · rw [hread]
    simp [fieldOf_skip, fieldOf_front, hfits]
  · have hnumbers : fits 1 l.number = true := decide_eq_true hnumber
    rw [hread]
    simp [fieldOf_skip, fieldOf_front, hnumbers]
  · rw [hread, ← hflag]
    simp [fieldOf_skip, fieldOf_front, fits_flagBits1]

/-- Settles O54: every layout by the lemma that reads it back. -/
theorem charactersParseBack : Obligations.CharactersParseBack := by
  refine ⟨fun addr c hc haddr => ?_, fun q m hm hq => ?_, fun r haddr hecho hbody => Reply.message_read haddr hecho hbody,
    ⟨rfl, fun part q n st body s hpanels hring h => ?_⟩, ?_, ?_⟩
  · obtain ⟨hcommand, hread, hlength, hlong, hsum, -⟩ := commandMessage_read hc haddr
    exact ⟨parseCommand_commandBody hc, hcommand, hread, hlength, hlong, hsum⟩
  · obtain ⟨hmarket, hread, hlength, hlong, hsum, -⟩ := marketMessage_read hm hq
    exact ⟨parseMarket_marketBody hm, hmarket, hread, hlength, hlong, hsum⟩
  · exact (ReplyBody.characters_length (queryBody_rendered hpanels hring h)).trans (by decide)
  · intro echo slot row s hecho hrow hkind characters
    obtain ⟨hright, hwrong⟩ := State.frameRow_stationRequest (s := s) (slot := slot) hrow hkind hecho
    refine ⟨hright, hwrong, characterSum_checked _, fun count tail hcount htail => ?_⟩
    simp only [State.frameRow, characters, wholeFrame_cut hkind echo hcount htail]
  · intro slot n later type f l s hn
    obtain ⟨hslot, hanswer, hready, hreceipt⟩ := State.frameRow_short (s := s) (slot := slot) hn
    refine ⟨hslot, hanswer, hready, hreceipt, fun htype => State.frameRow_unknown htype later, State.deskFrame_sum,
      frame_eq, fun hnone => ⟨fun hline => ?_, fun hline => ?_⟩, ?_, lineFrame_read hn l⟩
    · simp only [State.deskFrame, hnone, hline, if_true]
    · simp only [State.deskFrame, hnone, if_neg hline]
    · intro u hu numbered
      have hnumbered : charactersOf 1 u.station = numbered := by simp [charactersOf, numbered]
      obtain ⟨hline, hend, hbroken, hawaited, hsuspend⟩ := State.deskFrame_output hu l
      exact ⟨hline, hend, hbroken, hawaited, hnumbered ▸ hsuspend, fun ho => hnumbered ▸ State.deskFrame_calling hu ho⟩

end Sys2Proof.Machine
end



section
/-! PROOF. Market messages without a code, the DAY START walk, floor time and the expiry of a hold deadline (R49 to R54, R66,
R93). -/

namespace Sys2Proof.Machine

/-! ### What dealing with a market message leaves alone -/

/-- The state with another directory operation and another intake queue, which no market message looks at once it is taken
(R6, R174). -/
def State.waiting (s : State) (operation : DirOperation) (intake : Intake) : State :=
  { s with intake := intake, directory := { s.directory with operation := operation } }

/-- An offer to one tape looks at no operation and no intake (R76). -/
theorem State.offerTo_waiting (s : State) (id : TapeId) (kind : ItemKind) (operation : DirOperation) (intake : Intake) :
    (s.waiting operation intake).offerTo id kind = (s.offerTo id kind).waiting operation intake := by
  cases id
  · cases h : (s.tapeA.offer s.params (s.params.rate .a) s.clock { stamp := s.clock, kind := kind }).2 <;>
      simp [State.offerTo, State.tape, State.setTape, State.waiting, h]
  · cases h : (s.tapeB.offer s.params (s.params.rate .b) s.clock { stamp := s.clock, kind := kind }).2 <;>
      simp [State.offerTo, State.tape, State.setTape, State.waiting, h]

/-- An offer to the tapes looks at no operation and no intake (R76). -/
theorem State.offer_waiting (s : State) (toA toB : Bool) (kind : ItemKind) (operation : DirOperation) (intake : Intake) :
    (s.waiting operation intake).offer toA toB kind = (s.offer toA toB kind).waiting operation intake := by
  cases toA <;> cases toB <;> simp [State.offer, State.offerTo_waiting]

/-- A cancel hand-off to one tape looks at no operation and no intake (R88). -/
theorem State.cancelOn_waiting (s : State) (id : TapeId) (code : Code) (sequence price grid volume : Nat)
    (operation : DirOperation) (intake : Intake) :
    (s.waiting operation intake).cancelOn id code sequence price grid volume =
      (s.cancelOn id code sequence price grid volume).waiting operation intake := by
  have htape : (s.waiting operation intake).tape id = s.tape id := by cases id <;> rfl
  simp only [State.cancelOn, htape, State.offerTo_waiting]
  split
  · cases id <;> rfl
  · cases id <;> rfl
  · rfl

/-- A cancel hand-off to the tapes looks at no operation and no intake (R44). -/
theorem State.cancel_waiting (s : State) (toA toB : Bool) (code : Code) (sequence price grid volume : Nat)
    (operation : DirOperation) (intake : Intake) :
    (s.waiting operation intake).cancel toA toB code sequence price grid volume =
      (s.cancel toA toB code sequence price grid volume).waiting operation intake := by
  cases toA <;> cases toB <;> simp [State.cancel, State.cancelOn_waiting]

/-- Counting a print off its grid looks at no operation and no intake (R24). -/
theorem State.countOffGrid_waiting (s : State) (grid price : Nat) (operation : DirOperation) (intake : Intake) :
    (s.waiting operation intake).countOffGrid grid price = (s.countOffGrid grid price).waiting operation intake := by
  unfold State.countOffGrid
  split <;> rfl

/-- Offering a print looks at no operation and no intake (R39). -/
theorem State.offerPrint_waiting (s : State) (q : QuoteRecord) (p : Print) (operation : DirOperation) (intake : Intake) :
    (s.waiting operation intake).offerPrint q p = (s.offerPrint q p).waiting operation intake := by
  unfold State.offerPrint
  split
  · exact State.offer_waiting s (s.toTapeA q) q.maskB _ operation intake
  · rfl

/-- A record set and its cells marked look at no operation and no intake. -/
theorem State.setRecord_markCells_waiting (s : State) (r : Nat) (q : QuoteRecord) (cells : List Nat)
    (operation : DirOperation) (intake : Intake) :
    ((s.waiting operation intake).setRecord r q).markCells cells =
      ((s.setRecord r q).markCells cells).waiting operation intake := rfl

/-- Watch entries told of a change look at no operation and no intake. -/
theorem State.touch_waiting (s : State) (r : Nat) (f : WatchEntry → WatchEntry × Option Alert) (operation : DirOperation)
    (intake : Intake) :
    { s.waiting operation intake with desk := (s.waiting operation intake).desk.touch r f } =
      State.waiting { s with desk := s.desk.touch r f } operation intake := rfl

/-- A print applied looks at no operation and no intake (R35 to R39). -/
theorem State.applyPrint_waiting (s : State) (r : Nat) (q : QuoteRecord) (p : Print) (operation : DirOperation)
    (intake : Intake) :
    (s.waiting operation intake).applyPrint r q p = (s.applyPrint r q p).waiting operation intake := by
  simp only [State.applyPrint, State.countOffGrid_waiting, State.setRecord_markCells_waiting, State.touch_waiting,
    State.offerPrint_waiting]
  split <;> rfl

/-- A cancel found applied looks at no operation and no intake (R42). -/
theorem State.afterCancelFound_waiting (s : State) (r : Nat) (q q' : QuoteRecord) (sequence : Nat)
    (operation : DirOperation) (intake : Intake) :
    (s.waiting operation intake).afterCancelFound r q q' sequence =
      (s.afterCancelFound r q q' sequence).waiting operation intake := by
  unfold State.afterCancelFound
  split <;> rfl

/-- A cancel applied looks at no operation and no intake (R41 to R44). -/
theorem State.applyCancel_waiting (s : State) (r : Nat) (q : QuoteRecord) (sequence price volume : Nat)
    (operation : DirOperation) (intake : Intake) :
    (s.waiting operation intake).applyCancel r q sequence price volume =
      (s.applyCancel r q sequence price volume).waiting operation intake := by
  simp only [State.applyCancel, State.setRecord_markCells_waiting, State.afterCancelFound_waiting, State.cancel_waiting]
  split <;> rfl

/-- A message applied to its record looks at no operation and no intake (R174 item 4). -/
theorem State.applyToRecord_waiting (s : State) (r : Nat) (q : QuoteRecord) (sequence : Nat) (m : MarketMsg)
    (operation : DirOperation) (intake : Intake) :
    (s.waiting operation intake).applyToRecord r q sequence m = (s.applyToRecord r q sequence m).waiting operation intake := by
  cases m with
  | print code price volume condition =>
    simp only [State.applyToRecord]
    cases conditionOf condition with
    | none => rfl
    | some c => exact State.applyPrint_waiting ..
  | cancel code cancelled price volume => exact State.applyCancel_waiting ..
  | halt code n =>
    simp only [State.applyToRecord]
    cases reasonOf n with
    | none => rfl
    | some why =>
      simp only [State.applyHalt, State.setRecord_markCells_waiting, State.touch_waiting, State.offer_waiting]
      split <;> rfl
  | resume code =>
    simp only [State.applyToRecord, State.applyResume, State.setRecord_markCells_waiting, State.touch_waiting,
      State.offer_waiting]
    split <;> rfl
  | quote _ _ _ => rfl
  | figures _ _ _ _ _ _ => rfl
  | notice _ => rfl
  | dayStart => rfl
  | session _ => rfl
  | time _ _ _ => rfl

/-- A message of a code not found looks at no operation and no intake (R90). -/
theorem State.applyUnlisted_waiting (s : State) (sequence : Nat) (m : MarketMsg) (operation : DirOperation)
    (intake : Intake) :
    (s.waiting operation intake).applyUnlisted sequence m = (s.applyUnlisted sequence m).waiting operation intake := by
  unfold State.applyUnlisted
  show (if s.params.scopeAll = false then _ else _) = _
  split
  · rfl
  · cases m with
    | print code price volume condition =>
      simp only
      cases conditionOf condition with
      | none => rfl
      | some c =>
        simp only
        split
        · exact State.offerTo_waiting ..
        · rfl
    | cancel code cancelled price volume => exact State.cancelOn_waiting ..
    | _ => rfl

/-- A message that carries a code is dealt with by whether the directory holds the code (R174 items 4 to 6). -/
theorem State.applyMessage_coded (s : State) (sequence : Nat) {m : MarketMsg} {code : Code} (hcode : messageCode m = some code) :
    s.applyMessage sequence m =
      match lookupCode s.directory.entries code with
      | none => s.applyUnlisted sequence m
      | some r =>
        match s.record? r with
        | none => s
        | some q => s.applyToRecord r q sequence m := by
  have hbind : (messageCode m).bind (lookupCode s.directory.entries) = lookupCode s.directory.entries code := by
    rw [hcode]; rfl
  cases m with
  | dayStart => cases hcode
  | session _ => cases hcode
  | time _ _ _ => cases hcode
  | notice _ => cases hcode
  | _ => simp only [State.applyMessage, hbind] <;> rfl

/-- A sound message applied, with a code or without, looks at no operation and no intake (R174 items 3 to 6). -/
theorem State.applyMessage_waiting (s : State) (sequence : Nat) (m : MarketMsg) (operation : DirOperation) (intake : Intake) :
    (s.waiting operation intake).applyMessage sequence m = (s.applyMessage sequence m).waiting operation intake := by
  cases hcode : messageCode m with
  | some code =>
    rw [State.applyMessage_coded _ _ hcode, State.applyMessage_coded _ _ hcode]
    show (match lookupCode s.directory.entries code with
      | none => _
      | some r => match s.record? r with | none => _ | some q => _) = _
    cases lookupCode s.directory.entries code with
    | none => exact State.applyUnlisted_waiting ..
    | some r =>
      simp only
      cases s.record? r with
      | none => rfl
      | some q => exact State.applyToRecord_waiting ..
  | none =>
    cases m with
    | dayStart => rfl
    | time _ _ _ => rfl
    | notice text => exact State.offer_waiting s true true (.notice (text.take 32)) operation intake
    | session value =>
      simp only [State.applyMessage, State.applySession]
      split
      · exact State.offer_waiting { s with store := { s.store with session := .opened } } true true .sessionOpen operation
          intake
      · exact State.offer_waiting { s with store := { s.store with session := .closed } } true true .sessionClosed operation
          intake
    | _ => cases hcode

/-- Dealing with a message taken looks at no operation and no intake (R174). -/
theorem State.classify_waiting (s : State) (m : IntakeMessage) (operation : DirOperation) (intake : Intake) :
    (s.waiting operation intake).classify m = (s.classify m).waiting operation intake := by
  unfold State.classify
  show (if s.manager.state = .held then _ else if messageSound s.store.session m.message = false then _ else _) = _
  split
  · rfl
  · split
    · rfl
    · exact State.applyMessage_waiting ..

/-- Dealing with a message taken leaves the operation and the intake queue as they stand. -/
theorem State.classify_keeps (s : State) (m : IntakeMessage) :
    s.classify m = (s.classify m).waiting s.directory.operation s.intake :=
  State.classify_waiting s m s.directory.operation s.intake

/-- A sound message applied leaves the operation as it stands. -/
theorem State.applyMessage_operation (s : State) (sequence : Nat) (m : MarketMsg) :
    (s.applyMessage sequence m).directory.operation = s.directory.operation :=
  congrArg (fun t => t.directory.operation) (State.applyMessage_waiting s sequence m s.directory.operation s.intake)

/-- The classifier applies the message that a RUNNING unit takes when it is sound, and counts it as malformed when not
(R173, R174). -/
theorem exec_classifierTake_applies {s : State} {m : IntakeMessage} {rest : List IntakeMessage} (h : s.classifies m rest) :
    exec .classifierTake s = .next
      (if messageSound s.store.session m.message = false then
        { s with
          intake := { s.intake with queue := rest }
          counters := { s.counters with malformed := bump s.counters.malformed 1 } }
       else State.applyMessage { s with intake := { s.intake with queue := rest } } m.sequence m.message) := by
  obtain ⟨hrunning, hqueue, hidle, hwalk⟩ := h
  refine exec_classifierTake s m rest ⟨hrunning, hqueue, hidle, hwalk⟩ ?_
  rw [State.applyMessage_operation]
  exact hidle

/-- Settles O35: each message is taken by `exec_classifierTake_applies`. -/
theorem marketWideMessagesApply : Obligations.MarketWideMessagesApply := by
  unfold Obligations.MarketWideMessagesApply
  intro seq n hours minutes seconds text marked m rest s hclass
  have htaken := exec_classifierTake_applies hclass
  refine ⟨?opened, ?closed, ?unknown, ?time, ?notice, ?dayStart⟩
  case opened => rintro rfl; exact htaken
  case closed => rintro rfl; exact htaken
  case unknown =>
    rintro rfl hn
    have hsound : messageSound s.store.session (.session n) = false := decide_eq_false (by omega)
    rw [htaken, if_pos hsound]
    rfl
  case time =>
    rintro rfl hh hm hs
    have hsound : messageSound s.store.session (.time hours minutes seconds) = true := by
      simp [messageSound, fieldsSound, hh, hm, hs]
    rw [htaken, if_neg (by simp [hsound])]
    rfl
  case notice => rintro rfl; exact htaken
  case dayStart =>
    rintro rfl hclosed
    have hsound : messageSound s.store.session .dayStart = true := decide_eq_true hclosed
    rw [htaken, if_neg (by simp [hsound])]
    rfl

/-! ### The DAY START walk -/

/-- The first occupied record from a number on is what the walk reaches (R50). -/
theorem nextOccupied_eq {records : List (Nat × QuoteRecord)} {start r : Nat} {q : QuoteRecord}
    (hasc : tableAscending records) (hr : start ≤ r) (hget : tableGet records r = some q)
    (hnone : ∀ r', start ≤ r' → r' < r → tableGet records r' = none) : nextOccupied records start = some (r, q) := by
  induction records with
  | nil => cases hget
  | cons e rest ih =>
    obtain ⟨k, v⟩ := e
    simp only [tableAscending, List.map_cons, List.pairwise_cons] at hasc
    obtain ⟨hfirst, hrest⟩ := hasc
    by_cases hk : start ≤ k
    · have hrk : r ≤ k := by
        by_contra hlt
        have := hnone k hk (by omega)
        simp [tableGet] at this
      have hkr : k = r := by
        by_contra hne
        simp only [tableGet, if_neg hne] at hget
        have := hfirst r (List.mem_map_of_mem (f := Prod.fst) (mem_of_tableGet hget))
        omega
      subst hkr
      simp only [tableGet, if_true, Option.some.injEq] at hget
      simp [nextOccupied, hk, hget]
    · have hskip : ∀ r', start ≤ r' → tableGet ((k, v) :: rest) r' = tableGet rest r' := fun r' hr' => by
        simp only [tableGet, if_neg (show ¬ k = r' by omega)]
      have := ih hrest (by rw [← hskip r hr]; exact hget) fun r' h1 h2 => by rw [← hskip r' h1]; exact hnone r' h1 h2
      simpa [nextOccupied, hk] using this

/-- With no occupied record from a number on, the walk reaches none (R53). -/
theorem nextOccupied_none {records : List (Nat × QuoteRecord)} {start : Nat} (hasc : tableAscending records)
    (hnone : ∀ r, start ≤ r → tableGet records r = none) : nextOccupied records start = none := by
  rw [nextOccupied, List.find?_eq_none]
  intro e he hle
  have := hnone e.1 (of_decide_eq_true hle)
  rw [tableGet_of_mem hasc he] at this
  cases this

/-- The record as the walk's step leaves it, its new close the last price, or the close it had (R51, R52). -/
theorem QuoteRecord.dayStarted_eq (q : QuoteRecord) :
    q.dayStarted =
      (let close := (q.last.map Prod.fst).or q.prevClose
       { q with
          prevClose := close, last := none, reference := none, opening := none, high := none, low := none, volume := 0,
          tick := .noTick, ring := [], traded := false, halted := none,
          monitor := ⟨q.monitor.settings, .calm, 0, close.map (· * 256), none, none⟩ }) := by
  simp only [QuoteRecord.dayStarted, orKept_eq_or, Monitor.calmed]

/-- Settles O38: the step is the model's with `nextOccupied_eq`, the completion by whether a request is held. -/
theorem walkReachesEveryRecord : Obligations.WalkReachesEveryRecord := by
  unfold Obligations.WalkReachesEveryRecord
  intro start r q s hwalk htabled close completed
  obtain ⟨hasc, _⟩ := htabled
  refine ⟨fun hr hget hbefore => ?step, fun hnone => ?completion⟩
  case step =>
    have hnext : nextOccupied s.store.records start = some (r, q) := nextOccupied_eq hasc hr hget hbefore
    refine ⟨_, by simp only [exec, execDayStartWalkStep, hwalk, hnext]; rfl, rfl, ?_, fun r' hne => ?_⟩
    · exact (State.record?_setRecord s r r q.dayStarted).trans (by rw [if_pos rfl, QuoteRecord.dayStarted_eq])
    · exact (State.record?_setRecord s r r' q.dayStarted).trans (if_neg hne)
  case completion =>
    have hnext : nextOccupied s.store.records start = none := nextOccupied_none hasc hnone
    have hbegin : State.beginWorking
        { s with store := { s.store with walk := none }, desk := s.desk.clearMarks } = completed := by
      unfold State.beginWorking
      simp only [completed]
      cases hop : s.directory.operation with
      | draining work held =>
        simp only
        cases hmarked : s.intake.holdsMarked
        · rfl
        · simp; rfl
      | idle => rfl
      | working work held => rfl
    have hexec : exec .dayStartWalkCompletion s = .next completed.serveHeld := by
      simp only [exec, execDayStartWalkCompletion, hwalk, hnext, hbegin]
    rw [hexec]
    refine ⟨fun h => ?_, fun hworking u request hu hrequest => ?_⟩
    · have hstopped : completed.noRequestHeld ∨ completed.lookupsStopped = true :=
        h.imp_right fun hw => by rw [State.lookupsStopped, hw, Bool.true_or]
      exact congrArg Host.Outcome.next (State.serveHeld_none hstopped)
    · have hgo : completed.lookupsStopped = false := by rw [State.lookupsStopped, hworking]; rfl
      exact congrArg Host.Outcome.next (State.serveHeld_some (s := completed) hu hrequest hgo)

/-! ### Floor time and the hold deadline -/

/-- Floor time one second later is a time of day, one second on modulo a day (R54). -/
theorem FloorTime.advanced_sound {t : FloorTime} (hh : t.hours ≤ 23) (hm : t.minutes ≤ 59) (hs : t.seconds ≤ 59) :
    t.advanced.hours ≤ 23 ∧ t.advanced.minutes ≤ 59 ∧ t.advanced.seconds ≤ 59 ∧
      t.advanced.hours * 3600 + t.advanced.minutes * 60 + t.advanced.seconds =
        (t.hours * 3600 + t.minutes * 60 + t.seconds + 1) % 86400 := by
  unfold FloorTime.advanced
  split
  · refine ⟨hh, hm, ?_, ?_⟩ <;> simp only <;> omega
  · split
    · refine ⟨hh, ?_, ?_, ?_⟩ <;> simp only <;> omega
    · split <;> refine ⟨?_, ?_, ?_, ?_⟩ <;> simp only <;> omega

/-- Settles O39: floor time by `FloorTime.advanced_sound`, the hold deadline by whether the clock has reached it. -/
theorem floorTimeAndHoldsExpire : Obligations.FloorTimeAndHoldsExpire := by
  unfold Obligations.FloorTimeAndHoldsExpire
  intro r q s
  refine ⟨fun hreached => ?advances, fun hnot => ?waits, fun hrecord hstate => ?hold⟩
  case advances =>
    refine ⟨_, by simp only [exec, execFloorTimeAdvance, hreached, if_true]; rfl, rfl, ?_⟩
    exact FloorTime.advanced_sound
  case waits => simp only [exec, execFloorTimeAdvance, hnot, Bool.false_eq_true, if_false]
  case hold =>
    have hmoving : q.monitor.moving = true := (Monitor.moving_iff _).2 hstate
    refine ⟨fun at_ hhold hreached => ?_, fun at_ hhold hnot => ?_⟩
    · have hdue : due s.clock q.monitor.hold = true := by rw [hhold]; exact hreached
      simp only [exec, execHoldExpiry, hrecord, hmoving, hdue, and_self, if_true, QuoteRecord.recentred, settledBaseline]
      rfl
    · have hdue : due s.clock q.monitor.hold = false := by rw [hhold]; exact hnot
      simp only [exec, execHoldExpiry, hrecord, hdue, Bool.false_eq_true, and_false, if_false]

end Sys2Proof.Machine
end



section
/-! PROOF. What the classifier takes, a PRINT taken as regular, and a CANCEL (R6, R27 to R31, R33 to R37, R41 to R44, R90,
R173, R174). -/

namespace Sys2Proof.Machine

/-! ### What the classifier takes and lets go -/

/-- The state with the head of the intake queue taken, `rest` left in it (R173). -/
def State.headTaken (s : State) (rest : List IntakeMessage) : State :=
  { s with intake := { s.intake with queue := rest } }

/-- A head that R173 does not let go is not taken. -/
theorem exec_classifierTake_waits {s : State} {m : IntakeMessage} {rest : List IntakeMessage}
    (hqueue : s.intake.queue = m :: rest) (h : s.mayTake m = false) : exec .classifierTake s = .next s := by
  simp [exec, execClassifierTake, hqueue, h]

/-- A head that R173 lets go is taken and dealt with, and what waited for it begins its working phase (R6). -/
theorem exec_classifierTake_takes {s : State} {m : IntakeMessage} {rest : List IntakeMessage}
    (hqueue : s.intake.queue = m :: rest) (h : s.mayTake m = true) :
    exec .classifierTake s = .next ((s.headTaken rest).classify m).beginWorking := by
  simp [exec, execClassifierTake, hqueue, h, State.headTaken]

/-- While an operation is WORKING, a walk is in flight, or the head is unmarked behind a DRAINING operation, R173 lets nothing
go. -/
theorem State.mayTake_false {s : State} {m : IntakeMessage} {work : DirWork} {held : Bool}
    (h : s.directory.operation = .working work held ∨ s.store.walk ≠ none ∨
      (s.directory.operation = .draining work held ∧ m.marked = false)) : s.mayTake m = false := by
  rcases h with hworking | hwalk | ⟨hdraining, hmark⟩
  · simp [State.mayTake, Directory.isWorking, hworking]
  · simp [State.mayTake, hwalk]
  · simp [State.mayTake, Directory.isDraining, hdraining, hmark]

/-- With no operation held and no walk, R173 lets every head go. -/
theorem State.mayTake_idle {s : State} (m : IntakeMessage) (hidle : s.directory.operation = .idle) (hwalk : s.store.walk = none) :
    s.mayTake m = true := by simp [State.mayTake, Directory.isWorking, Directory.isDraining, hidle, hwalk]

/-- Behind a DRAINING operation, with no walk, R173 lets a marked head go. -/
theorem State.mayTake_marked {s : State} {m : IntakeMessage} {work : DirWork} {held : Bool}
    (hdraining : s.directory.operation = .draining work held) (hwalk : s.store.walk = none) (hmark : m.marked = true) :
    s.mayTake m = true := by simp [State.mayTake, Directory.isWorking, Directory.isDraining, hdraining, hwalk, hmark]

/-- While HELD every message taken is discarded and counted (R174 item 1). -/
theorem State.classify_held {s : State} (m : IntakeMessage) (h : s.manager.state = .held) :
    s.classify m = { s with counters := { s.counters with heldDiscards := bump s.counters.heldDiscards 1 } } := if_pos h

/-- A message whose fields fail R33 is counted as malformed (R174 item 2). -/
theorem State.classify_malformed {s : State} {m : IntakeMessage} (h : s.manager.state = .running)
    (hsound : messageSound s.store.session m.message = false) :
    s.classify m = { s with counters := { s.counters with malformed := bump s.counters.malformed 1 } } := by
  simp [State.classify, h, hsound]

/-- A message whose field checks fail fails R33, whatever the session: DAY START has no field. -/
theorem messageSound_of_fields {m : MarketMsg} (session : Session) (h : fieldsSound m = false) :
    messageSound session m = false := by
  cases m with
  | dayStart => cases h
  | _ => exact h

/-- A marked message stands in the rest of the queue: the same said of the list. -/
theorem Intake.holdsMarked_iff (i : Intake) : i.holdsMarked = true ↔ ∃ x ∈ i.queue, x.marked = true := by
  simp [Intake.holdsMarked]

/-- DRAINING stays while a walk is in flight or a marked message stands, and gives way to WORKING otherwise (R6). -/
theorem State.beginWorking_draining {s : State} {work : DirWork} {held : Bool}
    (h : s.directory.operation = .draining work held) :
    s.beginWorking = { s with directory := { s.directory with operation :=
      if s.store.walk ≠ none ∨ ∃ x ∈ s.intake.queue, x.marked = true then .draining work held else .working work held } } := by
  obtain ⟨clock, manager, params, counters, feed, intake, ⟨entries, operation⟩, store, tapeA, tapeB, board, desk, pending⟩ := s
  simp only at h
  subst h
  simp only [State.beginWorking]
  by_cases hwait : store.walk ≠ none ∨ ∃ x ∈ intake.queue, x.marked = true
  · have hstays : ¬ (intake.holdsMarked = false ∧ store.walk = none) := by
      rintro ⟨hclear, hwalk⟩
      rcases hwait with hwalk' | hmarked
      · exact hwalk' hwalk
      · exact Bool.false_ne_true (hclear.symm.trans ((Intake.holdsMarked_iff intake).2 hmarked))
    rw [if_pos hwait, if_neg hstays]
  · have hgoes : intake.holdsMarked = false ∧ store.walk = none :=
      ⟨eq_false_of_ne_true fun hmarked => hwait (.inr ((Intake.holdsMarked_iff intake).1 hmarked)),
        by_contra fun hwalk => hwait (.inl hwalk)⟩
    rw [if_neg hwait, if_pos hgoes]

/-- A message of a code not found leaves the directory as it stands (R90). -/
theorem State.applyUnlisted_directory (s : State) (sequence : Nat) (m : MarketMsg) :
    (s.applyUnlisted sequence m).directory = s.directory := by
  unfold State.applyUnlisted
  split
  · rfl
  · cases m with
    | print code price volume condition =>
      simp only
      cases conditionOf condition with
      | none => rfl
      | some c =>
        simp only
        split
        · rw [State.offerTo_frame]
        · rfl
    | cancel code cancelled price volume => exact State.cancelOn_directory s .a code cancelled price 64 volume
    | _ => rfl

/-- A sound message applied leaves the directory as it stands. -/
theorem State.applyMessage_directory (s : State) (sequence : Nat) (m : MarketMsg) :
    (s.applyMessage sequence m).directory = s.directory := by
  cases hcode : messageCode m with
  | some code =>
    rw [State.applyMessage_coded _ _ hcode]
    split
    · exact State.applyUnlisted_directory s sequence m
    · split
      · rfl
      · exact State.applyToRecord_directory s _ _ sequence m
  | none =>
    cases m with
    | dayStart => rfl
    | time _ _ _ => rfl
    | notice text => exact State.offer_directory s true true _
    | session value =>
      simp only [State.applyMessage, State.applySession]
      split <;> exact State.offer_directory _ true true _
    | _ => cases hcode

/-- Dealing with a message taken leaves the directory as it stands. -/
theorem State.classify_directory (s : State) (m : IntakeMessage) : (s.classify m).directory = s.directory := by
  unfold State.classify
  split
  · rfl
  · split
    · rfl
    · exact State.applyMessage_directory s m.sequence m.message

/-- With no operation held and no walk, the head is taken and dealt with, and nothing waits for it (R173). -/
theorem exec_classifierTake_idle {s : State} {m : IntakeMessage} {rest : List IntakeMessage}
    (hqueue : s.intake.queue = m :: rest) (hidle : s.directory.operation = .idle) (hwalk : s.store.walk = none) :
    exec .classifierTake s = .next ((s.headTaken rest).classify m) := by
  have hkept : ((s.headTaken rest).classify m).directory.operation = .idle :=
    (congrArg Directory.operation (State.classify_directory (s.headTaken rest) m)).trans hidle
  rw [exec_classifierTake_takes hqueue (State.mayTake_idle m hidle hwalk), State.beginWorking_idle hkept]

/-- Behind a DRAINING operation a marked head is taken and dealt with, and the operation is WORKING once no marked message is
left and no walk has begun (R6). -/
theorem exec_classifierTake_draining {s : State} {m : IntakeMessage} {rest : List IntakeMessage} {work : DirWork}
    {held : Bool} (hqueue : s.intake.queue = m :: rest) (hdraining : s.directory.operation = .draining work held)
    (hwalk : s.store.walk = none) (hmark : m.marked = true) :
    exec .classifierTake s = .next
      (let t := (s.headTaken rest).classify m
       { t with directory := { t.directory with operation :=
          if t.store.walk ≠ none ∨ ∃ x ∈ rest, x.marked = true then .draining work held else .working work held } }) := by
  have hoperation : ((s.headTaken rest).classify m).directory.operation = .draining work held :=
    (congrArg Directory.operation (State.classify_directory (s.headTaken rest) m)).trans hdraining
  have hqueue' : ((s.headTaken rest).classify m).intake.queue = rest :=
    congrArg (fun t => t.intake.queue) (State.classify_keeps (s.headTaken rest) m)
  rw [exec_classifierTake_takes hqueue (State.mayTake_marked hdraining hwalk hmark),
    State.beginWorking_draining hoperation, hqueue']

/-- A sound message of a code not found is dealt with as unlisted (R174 items 5 and 6). -/
theorem exec_classifierTake_unlisted {s : State} {m : IntakeMessage} {rest : List IntakeMessage} {code : Code}
    (hclass : s.classifies m rest) (hcode : messageCode m.message = some code)
    (hmissing : lookupCode s.directory.entries code = none) (hsound : fieldsSound m.message = true) :
    exec .classifierTake s =
      .next ((s.headTaken rest).applyUnlisted m.sequence m.message) := by
  rw [exec_classifierTake_applies hclass, messageSound_of_code hcode, if_neg (by simp [hsound]),
    State.applyMessage_coded _ _ hcode]
  show Host.Outcome.next (match lookupCode s.directory.entries code with
    | none => _
    | some r => match s.record? r with | none => _ | some q => _) = _
  rw [hmissing]
  rfl

/-- Under scope ALL a PRINT of 100 shares or more of a code not found is offered to tape A on grid 64 (R90). -/
theorem State.applyUnlisted_print {condition : Condition} {c : Nat} (h : conditionOf c = some condition) (s : State)
    (sequence : Nat) (code : Code) (price volume : Nat) :
    s.applyUnlisted sequence (.print code price volume c) =
      if s.params.scopeAll = true ∧ 100 ≤ volume then
        s.offerTo .a (.print code price 64 volume condition [sequence])
      else s := by
  unfold State.applyUnlisted
  cases hscope : s.params.scopeAll <;> simp [h]

/-- Under scope ALL a CANCEL of a code not found is handed to tape A on grid 64 (R90). -/
theorem State.applyUnlisted_cancel (s : State) (sequence : Nat) (code : Code) (cancelled price volume : Nat) :
    s.applyUnlisted sequence (.cancel code cancelled price volume) =
      if s.params.scopeAll = true then s.cancelOn .a code cancelled price 64 volume else s := by
  unfold State.applyUnlisted
  cases hscope : s.params.scopeAll <;> simp

/-- Settles O31: what is taken by `State.mayTake_false`, `State.mayTake_idle` and `State.mayTake_marked`, what is done by the
lemma for each of R174's tests, and that the operation is not looked at by `State.classify_waiting`. -/
theorem classifierExaminesHead : Obligations.ClassifierExaminesHead := by
  refine ⟨?takes, ?unlisted, ?ignored⟩
  case takes =>
    intro m rest work held s hqueue
    refine ⟨fun h => exec_classifierTake_waits hqueue (State.mayTake_false h), fun hidle hwalk => ?idle,
      fun hdraining hwalk hmark hheld => ?drainingHeld, fun hdraining hwalk hmark => ?draining⟩
    case idle =>
      have htakes := exec_classifierTake_idle hqueue hidle hwalk
      refine ⟨fun hheld => ?_, fun hrunning hfields => ?_, fun hrunning hday hsession => ?_⟩
      · exact htakes.trans (congrArg _ (State.classify_held (s := s.headTaken rest) m hheld))
      · exact htakes.trans (congrArg _
          (State.classify_malformed (s := s.headTaken rest) hrunning (messageSound_of_fields _ hfields)))
      · have hsound : messageSound s.store.session m.message = false := by rw [hday]; exact decide_eq_false hsession
        exact htakes.trans (congrArg _ (State.classify_malformed (s := s.headTaken rest) hrunning hsound))
    case drainingHeld =>
      rw [exec_classifierTake_draining hqueue hdraining hwalk hmark, State.classify_held (s := s.headTaken rest) m hheld]
      have hnowalk : ¬ (s.headTaken rest).store.walk ≠ none := fun hne => hne hwalk
      simp only [hnowalk, false_or]
      split
      · rw [← hdraining]; rfl
      · rfl
    case draining =>
      have hidle := exec_classifierTake_idle (s := { s with directory := { s.directory with operation := .idle } }) hqueue rfl
        hwalk
      have hsame : State.classify
          (State.headTaken { s with directory := { s.directory with operation := .idle } } rest) m =
            ((s.headTaken rest).classify m).waiting .idle { s.intake with queue := rest } :=
        State.classify_waiting (s.headTaken rest) m .idle { s.intake with queue := rest }
      rw [hsame] at hidle
      refine ⟨_, hidle, (exec_classifierTake_draining hqueue hdraining hwalk hmark).trans ?_⟩
      simp only [State.classify_directory]
      rw [State.classify_keeps (s.headTaken rest) m]
      rfl
  case unlisted =>
    intro m rest code price volume c sequence condition s hclass hmissing hwf hprice hvolume
    refine ⟨fun hprint hcondition => ?_, fun hcancel hsequence => ?_⟩
    · have hsound : fieldsSound m.message = true := by simp [hprint, fieldsSound, hwf, hprice, hvolume, hcondition]
      rw [exec_classifierTake_unlisted hclass (by rw [hprint]; rfl) hmissing hsound, hprint,
        State.applyUnlisted_print hcondition]
      rfl
    · have hsound : fieldsSound m.message = true := by simp [hcancel, fieldsSound, hwf, hprice, hvolume, hsequence]
      rw [exec_classifierTake_unlisted hclass (by rw [hcancel]; rfl) hmissing hsound, hcancel,
        State.applyUnlisted_cancel]
      rfl
  case ignored =>
    intro m rest code bid ask reason close opening high low volume s hclass hsound hmissing hkind
    have hunlisted := fun hcode => exec_classifierTake_unlisted hclass (code := code) hcode hmissing hsound
    rcases hkind with hm | hm | hm | hm
    all_goals
      rw [hunlisted (by rw [hm]; rfl), hm]
      simp only [State.applyUnlisted, ite_self]
      rfl

/-! ### A PRINT taken as regular -/

/-- Open after a regular print: its price when open was absent or the print is the opening one (R29). -/
theorem openAfter_eq (opening : Option Nat) {c : Nat} (hc : c ≤ 1) (price : Nat) :
    openAfter opening (if c = 0 then Condition.regular else .opened) price =
      if opening = none ∨ c = 1 then some price else opening := by
  interval_cases c <;> cases opening <;> simp [openAfter]

/-- High after a regular print (R29). -/
theorem highAfter_eq (high : Option Nat) (price : Nat) : highAfter high price = some (max price (high.getD price)) := by
  cases high with
  | none => simp [highAfter]
  | some present =>
    simp only [highAfter, Option.getD_some]
    split <;> congr 1 <;> omega

/-- Low after a regular print (R29). -/
theorem lowAfter_eq (low : Option Nat) (price : Nat) : lowAfter low price = some (min price (low.getD price)) := by
  cases low with
  | none => simp [lowAfter]
  | some present =>
    simp only [lowAfter, Option.getD_some]
    split <;> congr 1 <;> omega

/-- A print that moves from the price before it, last or, with last absent, previous close: the tick is by the move and the
reference is that price (R27). -/
theorem tickAfter_moves {q : QuoteRecord} {before : Nat} (price : Nat)
    (h : q.last.map Prod.fst = some before ∨ (q.last.map Prod.fst = none ∧ q.prevClose = some before)) :
    (before < price → (tickAfter q price).1 = .up ∧ (tickAfter q price).2 = some before) ∧
      (price < before → (tickAfter q price).1 = .down ∧ (tickAfter q price).2 = some before) := by
  unfold tickAfter
  cases hlast : q.last with
  | some pair =>
    obtain ⟨last, time⟩ := pair
    simp only [hlast, Option.map_some, Option.some.injEq, reduceCtorEq, false_and, or_false] at h
    subst h
    refine ⟨fun hup => by simp [hup], fun hdown => ?_⟩
    simp [hdown, show ¬ last < price by omega]
  | none =>
    simp only [hlast, Option.map_none, reduceCtorEq, true_and, false_or] at h
    simp only [h]
    refine ⟨fun hup => by simp [hup], fun hdown => ?_⟩
    simp [hdown, show ¬ before < price by omega]

/-- A print with no price before it, or at previous close with last absent, has no tick and keeps the reference (R27). -/
theorem tickAfter_first {q : QuoteRecord} {price : Nat} (hlast : q.last.map Prod.fst = none)
    (h : q.prevClose = none ∨ q.prevClose = some price) : tickAfter q price = (.noTick, q.reference) := by
  have hnone : q.last = none := Option.map_eq_none_iff.1 hlast
  rcases h with h | h <;> simp [tickAfter, hnone, h]

/-- A print at last keeps the reference, and its tick is the zero tick of the direction before it (R27). -/
theorem tickAfter_same {q : QuoteRecord} {price : Nat} (hlast : q.last.map Prod.fst = some price) :
    (tickAfter q price).2 = q.reference ∧
      (q.tick = .up ∨ q.tick = .zeroPlus → (tickAfter q price).1 = .zeroPlus) ∧
      (q.tick = .down ∨ q.tick = .zeroMinus → (tickAfter q price).1 = .zeroMinus) ∧
      (q.tick = .noTick → (tickAfter q price).1 = .noTick) := by
  obtain ⟨⟨last, time⟩, hq, rfl⟩ := Option.map_eq_some_iff.1 hlast
  unfold tickAfter
  rw [hq]
  cases q.tick <;> simp

/-- A NORMAL record takes a print of condition REGULAR or OPENED as regular (R35). -/
theorem takenAsRegular_true {q : QuoteRecord} {c : Condition} (hhalted : q.halted = none) (hc : c ≠ .sld) :
    takenAsRegular q c = true := by simp [takenAsRegular, hhalted, hc]

/-- Condition codes 0 and 1 are REGULAR and OPENED (R191). -/
theorem conditionOf_le_one {c : Nat} (hc : c ≤ 1) : conditionOf c = some (if c = 0 then Condition.regular else .opened) := by
  interval_cases c <;> rfl

/-- Settles O32: the record by the equation of each field, the rest by the model's order. -/
theorem regularPrintMovesRecord : Obligations.RegularPrintMovesRecord := by
  unfold Obligations.RegularPrintMovesRecord
  intro code p v c seq r marked q rest s hclass hfinds hwf hp hv hc hnormal condition monitored others old applied
  have hcondition : conditionOf c = some condition := conditionOf_le_one hc
  have hregular : takenAsRegular q condition = true :=
    takenAsRegular_true hnormal (by simp only [condition]; split <;> decide)
  have hsound : fieldsSound (.print code p v c) = true := by simp [fieldsSound, hwf, hp, hv, hcondition]
  have hexec := exec_classifierTake_finds hclass rfl hfinds hsound
  simp only [State.applyToRecord, hcondition, State.applyPrint, hregular, if_true, State.countOffGrid_eq] at hexec
  have hrecord : (q.regularPrint ⟨seq, p, v, condition⟩ s.store.floor s.clock s.params.moveHold).1 = { q with
        tick := (tickAfter q p).1
        reference := (tickAfter q p).2
        last := some (p, s.store.floor)
        opening := if q.opening = none ∨ c = 1 then some p else q.opening
        high := some (max p (q.high.getD p))
        low := some (min p (q.low.getD p))
        volume := min 4294967295 (q.volume + v)
        ring := (if 4 ≤ others.length then others.drop 1 else others) ++ [⟨seq, p, v, condition⟩]
        traded := true
        monitor := monitored.1 } := by
    simp only [QuoteRecord.regularPrint, highAfter_eq, lowAfter_eq, pushRing_eq, condition, openAfter_eq _ hc]
    rfl
  refine ⟨_, (tickAfter q p).1, (tickAfter q p).2, hexec, ?record, fun r' hne => ?others, fun before h => tickAfter_moves p h,
    fun hlast h => by simp [tickAfter_first hlast h], fun h => tickAfter_same h, ?whole⟩
  case record =>
    rw [← hrecord]
    simp only [State.offerPrint]
    split
    · simp only [State.record?, State.offer_store]
      exact (State.record?_setRecord s r r _).trans (if_pos rfl)
    · exact (State.record?_setRecord s r r _).trans (if_pos rfl)
  case others =>
    simp only [State.offerPrint]
    split
    · simp only [State.record?, State.offer_store]
      exact (State.record?_setRecord s r r' _).trans (if_neg hne)
    · exact (State.record?_setRecord s r r' _).trans (if_neg hne)
  case whole =>
    simp only [State.offerPrint]
    by_cases hsmall : v < 100
    · rw [if_pos hsmall, if_neg (by omega)]; rfl
    · rw [if_neg hsmall, if_pos (by omega)]
      simp only [State.offer_store]
      rfl

/-! ### A CANCEL -/

/-- The newest regular print of a ring, from its newest end (R42). -/
theorem newestRegular_append (older newer : List Print) :
    newestRegular (older ++ newer) = (newestRegular newer).or (newestRegular older) := by
  simp [newestRegular, List.filter_append, List.getLast?_append]

/-- Prints that are all SLD hold no regular print (R42). -/
theorem newestRegular_sld {prints : List Print} (h : ∀ y ∈ prints, y.condition = .sld) : newestRegular prints = none := by
  have : prints.filter Print.isRegular = [] := List.filter_eq_nil_iff.2 fun y hy => by simp [Print.isRegular, h y hy]
  rw [newestRegular, this]; rfl

/-- A regular print with only SLD prints after it is the newest regular one (R42). -/
theorem newestRegular_here {older newer : List Print} {x : Print} (hx : x.condition ≠ .sld)
    (h : ∀ y ∈ newer, y.condition = .sld) : newestRegular (older ++ x :: newer) = some x := by
  have hone : newestRegular [x] = some x := by simp [newestRegular, Print.isRegular, hx]
  rw [← List.singleton_append (l := newer), newestRegular_append, newestRegular_append, newestRegular_sld h, hone]
  rfl

/-- Prints with a regular one among them hold a newest regular one, which stands among them (R42). -/
theorem newestRegular_some {prints : List Print} (h : ∃ y ∈ prints, y.condition ≠ .sld) :
    ∃ y ∈ prints, newestRegular prints = some y := by
  obtain ⟨y, hy, hregular⟩ := h
  have hmem : y ∈ prints.filter Print.isRegular := List.mem_filter.2 ⟨hy, by simp [Print.isRegular, hregular]⟩
  cases hlast : (prints.filter Print.isRegular).getLast? with
  | none => rw [List.getLast?_eq_none_iff.1 hlast] at hmem; cases hmem
  | some z => exact ⟨z, (List.mem_filter.1 (List.mem_of_getLast? hlast)).1, hlast⟩

section
variable {older newer : List Print} {x : Print}

/-- In a sound ring no other print has the number of a print (R31). -/
theorem ringSound_others (h : ringSound (older ++ x :: newer)) :
    (∀ y ∈ older, y.sequence ≠ x.sequence) ∧ ∀ y ∈ newer, y.sequence ≠ x.sequence := by
  obtain ⟨_, hnodup⟩ := h
  rw [List.map_append, List.map_cons, List.nodup_append, List.nodup_cons] at hnodup
  obtain ⟨_, ⟨hnewer, _⟩, holder⟩ := hnodup
  exact ⟨fun y hy => holder _ (List.mem_map_of_mem hy) _ List.mem_cons_self,
    fun y hy he => hnewer (he ▸ List.mem_map_of_mem (f := Print.sequence) hy)⟩

/-- The print of a number is found in a sound ring (R41). -/
theorem find?_print (h : ringSound (older ++ x :: newer)) :
    (older ++ x :: newer).find? (fun p => decide (p.sequence = x.sequence)) = some x := by
  have hnone : older.find? (fun p => decide (p.sequence = x.sequence)) = none :=
    List.find?_eq_none.2 fun y hy => by simpa using (ringSound_others h).1 y hy
  rw [List.find?_append, hnone]
  simp

/-- A sound ring without the print of a number is what stood around it (R42). -/
theorem withoutPrint_eq (h : ringSound (older ++ x :: newer)) :
    withoutPrint (older ++ x :: newer) x.sequence = older ++ newer := by
  obtain ⟨holder, hnewer⟩ := ringSound_others h
  have h1 : older.filter (fun p => p.sequence != x.sequence) = older :=
    List.filter_eq_self.2 fun y hy => by simpa using holder y hy
  have h2 : newer.filter (fun p => p.sequence != x.sequence) = newer :=
    List.filter_eq_self.2 fun y hy => by simpa using hnewer y hy
  simp [withoutPrint, List.filter_append, h1, h2]

/-- An SLD print, or one with a regular print after it, is not the newest regular print (R42). -/
theorem cancelsLast_false (h : ringSound (older ++ x :: newer)) (hnot : x.condition = .sld ∨ ∃ y ∈ newer, y.condition ≠ .sld) :
    cancelsLast (older ++ x :: newer) x.sequence = false := by
  obtain ⟨holder, hnewer⟩ := ringSound_others h
  by_cases hlater : ∃ y ∈ newer, y.condition ≠ .sld
  · obtain ⟨y, hy, hnewest⟩ := newestRegular_some hlater
    have hring : newestRegular (older ++ x :: newer) = some y := by
      rw [← List.singleton_append (l := newer), newestRegular_append, newestRegular_append, hnewest]
      rfl
    simpa [cancelsLast, hring] using hnewer y hy
  · have hsld : x.condition = .sld := hnot.resolve_right hlater
    have hnone : newestRegular (x :: newer) = none :=
      newestRegular_sld fun y hy => by
        rcases List.mem_cons.1 hy with rfl | hy
        · exact hsld
        · exact by_contra fun hne => hlater ⟨y, hy, hne⟩
    rw [cancelsLast, newestRegular_append, hnone, Option.none_or]
    cases hold : newestRegular older with
    | none => rfl
    | some y => 
      have hmem : y ∈ older := (List.mem_filter.1 (List.mem_of_getLast? hold)).1
      simpa using holder y hmem

/-- A regular print with only SLD prints after it is the newest regular print (R42). -/
theorem cancelsLast_true (hx : x.condition ≠ .sld) (h : ∀ y ∈ newer, y.condition = .sld) :
    cancelsLast (older ++ x :: newer) x.sequence = true := by
  simp [cancelsLast, newestRegular_here hx h]

end

/-- A cancel of a print found that was not the newest regular one: ring and volume alone (R42). -/
theorem State.applyCancel_kept {q : QuoteRecord} {older newer : List Print} {x : Print} (s : State) (r price volume : Nat)
    (hring : q.ring = older ++ x :: newer) (hsound : ringSound q.ring)
    (h : cancelsLast q.ring x.sequence = false) :
    s.applyCancel r q x.sequence price volume =
      State.cancel ((s.setRecord r { q with ring := older ++ newer, volume := q.volume - x.volume }).markCells q.cells)
        (q.maskA || s.params.scopeAll) q.maskB q.code x.sequence price q.grid x.volume := by
  rw [hring] at hsound
  have hwithout : withoutPrint q.ring x.sequence = older ++ newer := by rw [hring]; exact withoutPrint_eq hsound
  have hfind : q.ring.find? (fun p => decide (p.sequence = x.sequence)) = some x := by rw [hring]; exact find?_print hsound
  simp only [State.applyCancel, hfind, State.afterCancelFound, QuoteRecord.cancelFound, h, hwithout, Bool.false_eq_true, if_false]
  rfl

/-- A cancel of the newest regular print: last reverts too, and the watch entries are told (R37, R42). -/
theorem State.applyCancel_reverts {q : QuoteRecord} {older newer : List Print} {x : Print} (s : State) (r price volume : Nat)
    (hring : q.ring = older ++ x :: newer) (hsound : ringSound q.ring)
    (h : cancelsLast q.ring x.sequence = true) :
    s.applyCancel r q x.sequence price volume =
      (let last := lastReverted q (older ++ newer)
       State.cancel
        (State.setRecord
          { s with
            board := { s.board with dirty := Machine.markCells s.board.dirty q.cells }
            desk := s.desk.touch r (lastChanged (q.last.map Prod.fst) (last.map Prod.fst) false) }
          r { q with
            ring := older ++ newer, volume := q.volume - x.volume, last := last, tick := .noTick, reference := none })
        (q.maskA || s.params.scopeAll) q.maskB q.code x.sequence price q.grid x.volume) := by
  rw [hring] at hsound
  have hwithout : withoutPrint q.ring x.sequence = older ++ newer := by rw [hring]; exact withoutPrint_eq hsound
  have hfind : q.ring.find? (fun p => decide (p.sequence = x.sequence)) = some x := by rw [hring]; exact find?_print hsound
  simp only [State.applyCancel, hfind, State.afterCancelFound, QuoteRecord.cancelFound, h, hwithout, if_true]
  rfl

/-- Settles O33: found or not by `find?_print`, last kept or reverted by `cancelsLast_false` and `cancelsLast_true`. -/
theorem cancelCorrectsRecordAndTapes : Obligations.CancelCorrectsRecordAndTapes := by
  unfold Obligations.CancelCorrectsRecordAndTapes
  intro code cancelled p v seq r marked q rest s hclass hfinds hwf hp hv hcancelled hring
  have hsound : fieldsSound (.cancel code cancelled p v) = true := by simp [fieldsSound, hwf, hp, hv, hcancelled]
  have hexec := exec_classifierTake_finds hclass rfl hfinds hsound
  simp only [State.applyToRecord] at hexec
  refine ⟨fun hmissing => ?notFound, fun older x newer hq hx => ?found⟩
  case notFound =>
    have hfind : q.ring.find? (fun x => decide (x.sequence = cancelled)) = none :=
      List.find?_eq_none.2 fun x hx => by simpa using hmissing x hx
    simp only [State.applyCancel, hfind] at hexec
    exact hexec
  case found =>
    subst hx
    have hring' : ringSound (older ++ x :: newer) := hq ▸ hring
    refine ⟨fun hnot => ?_, fun hx hnewer holder => ?_, fun hx hnewer before y between holder hy hbetween last time hlast => ?_⟩
    · have hkept := cancelsLast_false hring' hnot
      rw [hexec, State.applyCancel_kept _ r p v hq hring (by rw [hq]; exact hkept)]
      rfl
    · have hreverts : cancelsLast q.ring x.sequence = true := by rw [hq]; exact cancelsLast_true hx hnewer
      have hlast : lastReverted q (older ++ newer) = none := by
        rw [lastReverted, newestRegular_append, newestRegular_sld hnewer, newestRegular_sld holder]
        rfl
      rw [hexec, State.applyCancel_reverts _ r p v hq hring hreverts]
      simp only [hlast]
      rfl
    · have hreverts : cancelsLast q.ring x.sequence = true := by rw [hq]; exact cancelsLast_true hx hnewer
      have hreverted : lastReverted q (older ++ newer) = some (y.price, time) := by
        rw [lastReverted, newestRegular_append, newestRegular_sld hnewer, holder, newestRegular_here hy hbetween, hlast]
        rfl
      rw [hexec, State.applyCancel_reverts _ r p v hq hring hreverts]
      simp only [hreverted, hlast]
      rfl

end Sys2Proof.Machine
end



section
/-! PROOF. What an application does to the watch entries of its record: marks, levels crossed, alerts, and the line being sent
(R37, R154, R156, R157). -/

namespace Sys2Proof.Machine

/-! ### One station -/

section
variable {st : Station} {before later : List WatchEntry} {e : WatchEntry} {r : Nat}

/-- The entry of a record is found in the list that holds it once (R141). -/
theorem find?_entry (hwatch : st.watch = before ++ e :: later) (hrecord : e.record = r)
    (hothers : ∀ x ∈ before ++ later, x.record ≠ r) : st.watch.find? (fun x => decide (x.record = r)) = some e := by
  have hnone : before.find? (fun x => decide (x.record = r)) = none :=
    List.find?_eq_none.2 fun x hx => by simpa using hothers x (List.mem_append_left _ hx)
  rw [hwatch, List.find?_append, hnone]
  simp [hrecord]

/-- A change of the entries of a record changes the one entry that the list holds for it. -/
theorem map_entry (g : WatchEntry → WatchEntry) (hrecord : e.record = r) (hothers : ∀ x ∈ before ++ later, x.record ≠ r) :
    (before ++ e :: later).map (fun x => if x.record = r then g x else x) = before ++ g e :: later := by
  have hsame : ∀ part : List WatchEntry, (∀ x ∈ part, x.record ≠ r) →
      part.map (fun x => if x.record = r then g x else x) = part := fun part hpart =>
    (List.map_congr_left fun x hx => if_neg (hpart x hx)).trans (List.map_id part)
  rw [List.map_append, List.map_cons, if_pos hrecord, hsame before fun x hx => hothers x (List.mem_append_left _ hx),
    hsame later fun x hx => hothers x (List.mem_append_right _ hx)]

/-- A station not DETACHED with an entry for the record: the entry is marked and dealt with, and its alert, if any, is raised
(R154, R156). -/
theorem Station.touch_entry (hwatch : st.watch = before ++ e :: later) (hrecord : e.record = r)
    (hothers : ∀ x ∈ before ++ later, x.record ≠ r) (hpresence : st.presence ≠ .detached)
    {f : WatchEntry → WatchEntry × Option Alert} {e' : WatchEntry} {alert : Option Alert} (hf : f e = (e', alert)) :
    st.touch r f = { st with
      watch := before ++ { e' with pending := true } :: later
      alerts := alert.elim st.alerts (raiseAlert st.alerts) } := by
  rw [Station.touch, if_neg hpresence, find?_entry hwatch hrecord hothers]
  simp only [hwatch, map_entry (fun x => { (f x).1 with pending := true }) hrecord hothers, hf]
  cases alert <;> rfl

end

/-- A raised alert replaces the entry's own in its place, or joins the tail (R157). -/
theorem raiseAlert_eq (alerts : List Alert) (a : Alert) :
    raiseAlert alerts a =
      if ∃ x ∈ alerts, x.record = a.record then alerts.map fun x => if x.record = a.record then a else x
      else alerts ++ [a] := by
  simp [raiseAlert, List.any_eq_true]

/-! ### Which alert a change of last raises (Table 7-5) -/

/-- A change of last crosses the ABOVE level of an entry: it was below the level and is at it or above (Table 7-5). -/
def WatchEntry.crossesAbove (e : WatchEntry) (old new : Option Nat) : Prop :=
  ∃ a o p, e.above = some a ∧ old = some o ∧ new = some p ∧ o < a ∧ a ≤ p

/-- A change of last crosses the BELOW level of an entry: it was above the level and is at it or below (Table 7-5). -/
def WatchEntry.crossesBelow (e : WatchEntry) (old new : Option Nat) : Prop :=
  ∃ b o p, e.below = some b ∧ old = some o ∧ new = some p ∧ b < o ∧ p ≤ b

/-- ABOVE stands first (R156). -/
theorem crossing_above {e : WatchEntry} {old new : Option Nat} (h : e.crossesAbove old new) :
    crossing e old new = some .above := by
  obtain ⟨a, o, p, hlevel, rfl, rfl, hbefore, hnow⟩ := h
  simp [crossing, hlevel, hbefore, hnow]

/-- The model's test of the ABOVE level says that it is crossed. -/
theorem any_above_iff (e : WatchEntry) (o p : Nat) :
    (e.above.any fun level => decide (o < level) && decide (level ≤ p)) = true ↔ e.crossesAbove (some o) (some p) := by
  simp [Option.any_eq_true, WatchEntry.crossesAbove]

/-- The model's test of the BELOW level says that it is crossed. -/
theorem any_below_iff (e : WatchEntry) (o p : Nat) :
    (e.below.any fun level => decide (level < o) && decide (p ≤ level)) = true ↔ e.crossesBelow (some o) (some p) := by
  simp [Option.any_eq_true, WatchEntry.crossesBelow]

/-- BELOW fires where ABOVE does not (R156). -/
theorem crossing_below {e : WatchEntry} {old new : Option Nat} (habove : ¬ e.crossesAbove old new)
    (h : e.crossesBelow old new) : crossing e old new = some .below := by
  have hcrossed := h
  obtain ⟨b, o, p, _, rfl, rfl, _, _⟩ := h
  rw [crossing, if_neg (mt (any_above_iff e o p).1 habove), if_pos ((any_below_iff e o p).2 hcrossed)]

/-- Where neither level is crossed none fires (R156). -/
theorem crossing_none {e : WatchEntry} {old new : Option Nat} (habove : ¬ e.crossesAbove old new)
    (hbelow : ¬ e.crossesBelow old new) : crossing e old new = none := by
  cases old with
  | none => rfl
  | some o =>
    cases new with
    | none => rfl
    | some p => rw [crossing, if_neg (mt (any_above_iff e o p).1 habove), if_neg (mt (any_below_iff e o p).1 hbelow)]

/-! ### The line being sent -/

/-- A line sent from an entry is marked again when its own entry is (R154). -/
theorem markedAgain_entry (r r' : Nat) (marked : Bool) (l : Line) (h : l.source = .entry r' marked) :
    markedAgain r (.line l) = .line { l with source := .entry r' (marked || decide (r' = r)) } := by
  simp only [markedAgain, h]
  by_cases hr : r' = r
  · subst hr; simp
  · simp [hr, ← h]

/-- What is sent from no entry is left as it is (R154). -/
theorem markedAgain_other (r : Nat) {o : Output} (h : ∀ line n b, o = .line line → line.source ≠ .entry n b) :
    markedAgain r o = o := by
  unfold markedAgain
  split
  · next l =>
    split
    · next record marked hsource => exact absurd hsource (h l record marked rfl)
    · rfl
  · rfl

/-- Settles O37: the touched station by `Station.touch_entry`, the alert by the level crossed, the line by `markedAgain_entry`. -/
theorem changeOfLastMarksAndAlerts : Obligations.ChangeOfLastMarksAndAlerts := by
  refine ⟨?entry, ?untouched, fun r f d => ⟨rfl, fun h => ?noTransaction⟩, ?line⟩
  case entry =>
    intro r n old new price why moved st before later e d hst hwatch hrecord hothers hpresence above below alerted told changed
    have touched : ∀ {f : WatchEntry → WatchEntry × Option Alert} {entry : WatchEntry} {alert : Option Alert},
        f e = (entry, alert) → told f entry (alert.elim st.alerts (raiseAlert st.alerts)) := fun hf => by
      show (d.touch r _).stations[n]? = _
      rw [Desk.touch_get, hst, Option.map_some, Station.touch_entry hwatch hrecord hothers hpresence hf]
    have raised : ∀ (why : AlertReason) (price : Option Nat),
        raiseAlert st.alerts { record := e.record, reason := why, price := price } = alerted why price := fun why price => by
      rw [hrecord]; exact raiseAlert_eq st.alerts _
    refine ⟨fun habove => ?_, fun habove hbelow => ?_, fun habove hbelow hmoved hmove => ?_,
      fun habove hbelow hstill => ?_, ?_, touched (alert := none) rfl⟩
    · rw [← raised]
      exact touched (alert := some _) (by simp only [changed, lastChanged, crossing_above habove])
    · rw [← raised]
      exact touched (alert := some _) (by simp only [changed, lastChanged, crossing_below habove hbelow])
    · rw [← raised]
      exact touched (alert := some _) (by
        simp only [changed, lastChanged, crossing_none habove hbelow, hmoved, hmove, Bool.and_self, if_true])
    · have hquiet : (moved && e.move) = false := by rcases hstill with h | h <;> simp [h]
      exact touched (alert := none) (by
        simp only [changed, lastChanged, crossing_none habove hbelow, hquiet, Bool.false_eq_true, if_false])
    · rw [← raised]
      exact touched (alert := some _) rfl
  case untouched =>
    intro r n f st d hst h
    rw [Desk.touch_get, hst, Option.map_some]
    rcases h with hdetached | hunlisted
    · rw [Station.touch_detached r f st hdetached]
    · rw [Station.touch_unlisted r f st hunlisted]
  case noTransaction => simp [Desk.touch, h]
  case line =>
    intro r r' f marked u l d hu
    refine ⟨fun hline hsource => ?_, fun hother => ?_⟩
    · simp only [Desk.touch, hu, Option.map_some, hline, markedAgain_entry r r' marked l hsource]
    · simp only [Desk.touch, hu, Option.map_some, markedAgain_other r hother]

end Sys2Proof.Machine
end



section
/-! PROOF. The tapes: what follows on a ribbon and what the texts say, offers, and cancel hand-offs (R23, R76 to R78, R80 to R88). -/

namespace Sys2Proof.Machine

/-! ### The level decided and the head item started (R80 to R82) -/

/-- The level decided at an evaluation, the leave threshold written out (R82). -/
theorem nextLevel_eq (p : Params) (level late : Nat) :
    nextLevel p level late =
      (let target := if p.enter3 ≤ late then 3 else if p.enter2 ≤ late then 2 else if p.enter1 ≤ late then 1 else 0
       let leave := if level = 1 then p.leave1 else if level = 2 then p.leave2 else p.leave3
       if level < target then target else if 1 ≤ level ∧ late < leave then level - 1 else level) := by
  have hleave : leaveThreshold p level = if level = 1 then p.leave1 else if level = 2 then p.leave2 else p.leave3 := by
    unfold leaveThreshold
    split
    · rfl
    · rfl
    · next h1 h2 => rw [if_neg h1, if_neg h2]
  simp only [nextLevel, hleave]
  rfl

/-- The head item starts: its text is on the ribbon, the item leaves, and R78 is applied to its departure (R80, R81). -/
theorem Tape.startHead_eq {t : Tape} {head : Item} {rest : List Item} (p : Params) (rate : Nat) (now : Reading)
    (hqueue : t.queue = head :: rest) :
    t.startHead p rate now =
      (let shown := itemText t.level p.blockThreshold t.shown head.kind
       { t with
         queue := if t.omitted = 0 then rest else rest ++ [⟨now, .omitted t.omitted⟩]
         omitted := 0
         ribbon := .item shown (now + BitVec.ofNat 32 ((shown.length * 1000 + rate - 1) / rate))
         shown := shownAfterItem t.level t.shown head.kind }) := by
  simp only [Tape.startHead, hqueue, Tape.departed_eq]
  rfl

/-- With nothing queued no head starts, and the ribbon is IDLE. -/
theorem Tape.startHead_empty {t : Tape} (p : Params) (rate : Nat) (now : Reading) (hqueue : t.queue = []) :
    t.startHead p rate now = { t with ribbon := .idle } := by simp only [Tape.startHead, hqueue]

/-- The completion of a ribbon's text whose time has come (R80). -/
theorem exec_ribbonCompletion {id : TapeId} {s : State} {at_ : Reading} (hdone : (s.tape id).doneAt = some at_)
    (h : reached s.clock at_ = true) :
    exec (.ribbonCompletion id) s =
      .next (s.setTape id ((s.tape id).completed s.params (s.params.rate id) s.clock)) := by
  have hdue : due s.clock (s.tape id).doneAt = true := by rw [hdone]; exact h
  simp only [exec, execRibbonCompletion, hdue, if_true]

/-- The completion after an item: the level is decided, and the head or the level's notice starts (R80, R82, R83). -/
theorem Tape.completed_item {t : Tape} {text : Text} {at_ : Reading} (p : Params) (rate : Nat) (now : Reading)
    (hribbon : t.ribbon = .item text at_) : t.completed p rate now = t.startEvent p rate now := by
  simp only [Tape.completed, hribbon]

/-- The completion after a level notice: the head starts without a decision (R80). -/
theorem Tape.completed_notice {t : Tape} {text : Text} {at_ : Reading} (p : Params) (rate : Nat) (now : Reading)
    (hribbon : t.ribbon = .notice text at_) : t.completed p rate now = { t with slot := none }.startHead p rate now := by
  simp only [Tape.completed, hribbon]

/-- A start event with an item waiting, by whether the level moves (R80, R82). -/
theorem Tape.startEvent_cons {t : Tape} {head : Item} {rest : List Item} (p : Params) (rate : Nat) (now : Reading)
    (hqueue : t.queue = head :: rest) :
    t.startEvent p rate now =
      if nextLevel p t.level (lateness now head.stamp) = t.level then t.startHead p rate now
      else t.startNotice (nextLevel p t.level (lateness now head.stamp)) rate now := by
  simp only [Tape.startEvent, hqueue]

/-- A start event with nothing waiting leaves the ribbon IDLE. -/
theorem Tape.startEvent_empty {t : Tape} (p : Params) (rate : Nat) (now : Reading) (hqueue : t.queue = []) :
    t.startEvent p rate now = { t with ribbon := .idle } := by simp only [Tape.startEvent, hqueue]

/-! ### What the texts say (R23, R84, R86) -/

/-- A group that is there follows a space. -/
theorem spaced_of_ne_nil {group : Text} (h : group ≠ []) : spaced group = ' ' :: group := by
  cases group with
  | nil => exact absurd rfl h
  | cons c cs => rfl

/-- A number's digits are one or more. -/
theorem decimal_ne_nil (n : Nat) : decimal n ≠ [] := by
  unfold decimal decimalDigits
  split <;> simp

/-- The volume group of a PRINT with its space: left out under two hundreds and, above level 0, under the threshold (R84). -/
theorem spaced_volumeGroup (level threshold volume : Nat) :
    spaced (volumeGroup level threshold volume) =
      if volume / 100 < 2 ∨ (level ≠ 0 ∧ volume / 100 < threshold) then []
      else if volume / 100 < 100 then [' '] ++ decimal (volume / 100) ++ ['s']
      else [' '] ++ decimal (volume / 100 * 100) ++ "SHS".toList := by
  unfold volumeGroup
  simp only
  by_cases hfew : volume / 100 < 2
  · rw [if_pos hfew, if_pos (.inl hfew)]; rfl
  · by_cases hcut : level ≠ 0 ∧ volume / 100 < threshold
    · rw [if_neg hfew, if_pos hcut, if_pos (.inr hcut)]; rfl
    · have hshown : ¬ (volume / 100 < 2 ∨ (level ≠ 0 ∧ volume / 100 < threshold)) := not_or.2 ⟨hfew, hcut⟩
      rw [if_neg hfew, if_neg hcut, if_neg hshown]
      split <;> rw [spaced_of_ne_nil (by simp)] <;> rfl

/-- A price group is there, whatever its form. -/
theorem amountForm_ne_nil {dollarsText : Text} (h : dollarsText ≠ []) (dollars rest : Nat) :
    amountForm dollarsText dollars rest ≠ [] := by
  unfold amountForm
  split
  · exact h
  · split <;> simp [fractionText]

/-- The price group of a PRINT with its space: the dollars cut to their last digit for a code shown in full (R84). -/
theorem spaced_priceGroup (level grid price : Nat) (shown : List Code) (code : Code) :
    spaced (priceGroup level shown code grid price) =
      [' '] ++ (if 2 ≤ level ∧ code ∈ shown then cutPriceText grid price else priceText grid price) := by
  unfold priceGroup
  split
  · exact spaced_of_ne_nil (amountForm_ne_nil (List.cons_ne_nil _ _) _ _)
  · exact spaced_of_ne_nil (amountForm_ne_nil (decimal_ne_nil _) _ _)

/-- Settles O40: the ribbon by what its text was and what is queued, the texts group by group. -/
theorem ribbonStartsNextText : Obligations.RibbonStartsNextText := by
  refine ⟨?ribbon, ?texts⟩
  case ribbon =>
    intro id text at_ head rest s hreached old rate doneAt started late target leave level
    have hlevel : nextLevel s.params old.level (lateness s.clock head.stamp) = level := nextLevel_eq ..
    have item : old.ribbon = .item text at_ → exec (.ribbonCompletion id) s =
        .next (s.setTape id (old.startEvent s.params rate s.clock)) := fun hribbon => by
      rw [exec_ribbonCompletion (by rw [Tape.doneAt, hribbon]) hreached, Tape.completed_item _ _ _ hribbon]
    have notice : old.ribbon = .notice text at_ → exec (.ribbonCompletion id) s =
        .next (s.setTape id ({ old with slot := none }.startHead s.params rate s.clock)) := fun hribbon => by
      rw [exec_ribbonCompletion (by rw [Tape.doneAt, hribbon]) hreached, Tape.completed_notice _ _ _ hribbon]
    refine ⟨fun hribbon hqueue => ?_, fun hribbon hqueue hstays => ?_, fun hribbon hqueue hmoves => ?_,
      fun hribbon hqueue => ?_, fun hribbon hqueue => ?_⟩
    · rw [item hribbon, Tape.startEvent_empty _ _ _ hqueue]
    · rw [item hribbon, Tape.startEvent_cons _ _ _ hqueue, hlevel, if_pos hstays, Tape.startHead_eq _ _ _ hqueue]
    · rw [item hribbon, Tape.startEvent_cons _ _ _ hqueue, hlevel, if_neg hmoves]
      rfl
    · rw [notice hribbon, Tape.startHead_empty (t := { old with slot := none }) _ _ _ hqueue]
    · rw [notice hribbon, Tape.startHead_eq (t := { old with slot := none }) _ _ _ hqueue]
  case texts =>
    intro level threshold grid price volume count shown code condition reason text sequences hundreds amount fraction shownWith
      volumeShown marker why itemShown end_
    have hmarker : spaced (markerText condition) = marker := by cases condition <;> rfl
    refine ⟨?_, rfl, ?_, ?_, ?_, rfl, ?_, ?_, ?_, ?_, ?_, ?_, ?_, ?_, ?_⟩
    · show code ++ spaced (volumeGroup level threshold volume) ++ spaced (priceGroup level shown code grid price) ++
        spaced (markerText condition) ++ separator = _
      rw [spaced_volumeGroup, spaced_priceGroup, hmarker, ← List.append_assoc]
      rfl
    · rfl
    · cases reason <;> rfl
    all_goals rfl

/-! ### Offers (R76, R77, R87) -/

/-- An offer that is not omitted changes the tape alone (R76). -/
theorem State.offerTo_taken {s : State} {id : TapeId} {kind : ItemKind} {t : Tape}
    (h : (s.tape id).offer s.params (s.params.rate id) s.clock ⟨s.clock, kind⟩ = (t, false)) :
    s.offerTo id kind = s.setTape id t := by
  unfold State.offerTo
  simp [h]

/-- An offer that is omitted changes the tape and counts in the unit's omission counter of that tape (R77). -/
theorem State.offerTo_omitted {s : State} {id : TapeId} {kind : ItemKind} {t : Tape}
    (h : (s.tape id).offer s.params (s.params.rate id) s.clock ⟨s.clock, kind⟩ = (t, true)) :
    s.offerTo id kind = { s.setTape id t with counters :=
      match id with
      | .a => { s.counters with omissionsA := min 65535 (s.counters.omissionsA + 1) }
      | .b => { s.counters with omissionsB := min 65535 (s.counters.omissionsB + 1) } } := by
  unfold State.offerTo
  simp only [h, if_true]
  cases id <;> rfl

/-- No queued item is a PRINT of a code. -/
def NoPrintOf (code : Code) (items : List Item) : Prop := ∀ i ∈ items, ∀ p g v o l, i.kind ≠ .print code p g v o l

/-- An item that is no PRINT of a code does not carry it as one. -/
theorem printCode_ne {code : Code} {kind : ItemKind} (h : ∀ p g v o l, kind ≠ .print code p g v o l) :
    printCode kind ≠ some code := by
  cases kind with
  | print c p g v o l =>
    rintro hc
    cases hc
    exact h p g v o l rfl
  | _ => exact fun hc => by cases hc

/-- A queue with no PRINT item of a code has nothing to merge with (R87). -/
theorem mergeNewest_none {code : Code} {items : List Item} (h : NoPrintOf code items) (offered : ItemKind) :
    mergeNewest offered code items = none := by
  induction items with
  | nil => rfl
  | cons i rest ih =>
    obtain ⟨hi, hrest⟩ := List.forall_mem_cons.1 h
    simp only [mergeNewest, ih hrest, if_neg (printCode_ne hi)]

/-- The newest queued PRINT item of a code is the one that an offer is tested against (R87). -/
theorem mergeNewest_here {code : Code} {later : List Item} {i : Item} (hlater : NoPrintOf code later)
    (hi : printCode i.kind = some code) (offered : ItemKind) (before : List Item) :
    mergeNewest offered code (before ++ i :: later) =
      some ((mergeInto offered i.kind).map fun merged => before ++ { i with kind := merged } :: later) := by
  induction before with
  | nil => simp only [List.nil_append, mergeNewest, mergeNewest_none hlater, if_pos hi]
  | cons x rest ih =>
    simp only [List.cons_append, mergeNewest, ih, Option.map_map]
    rfl

/-- An offered item that R87's test lets stand apart: the level is not 3, it is no PRINT, no PRINT of its code is queued, or the
newest one differs in price, is not REGULAR like it, or is full. -/
def Tape.separates (t : Tape) (kind : ItemKind) : Prop :=
  t.level ≠ 3 ∨ (∀ c p g v o l, kind ≠ .print c p g v o l) ∨
    ∃ c p g v o l, kind = .print c p g v o l ∧ (NoPrintOf c t.queue ∨
      ∃ front st p' g' v' o' l' back, t.queue = front ++ ⟨st, .print c p' g' v' o' l'⟩ :: back ∧ NoPrintOf c back ∧
        (p' ≠ p ∨ o ≠ .regular ∨ o' ≠ .regular ∨ 8 ≤ l'.length))

/-- What stands apart does not merge (R87). -/
theorem Tape.merge_separates {t : Tape} {kind : ItemKind} (h : t.separates kind) : t.merge kind = none := by
  unfold Tape.merge
  split
  · rfl
  · next code hcode =>
    split
    · next hlevel =>
      rcases h with hnot | hkind | ⟨c, p, g, v, o, l, rfl, h⟩
      · exact absurd hlevel hnot
      · cases kind with
        | print c p g v o l => exact absurd rfl (hkind c p g v o l)
        | _ => cases hcode
      · obtain rfl : c = code := Option.some.inj hcode
        rcases h with hnone | ⟨front, st, p', g', v', o', l', back, hqueue, hback, hdiffers⟩
        · rw [mergeNewest_none hnone]; rfl
        · have hrefuses : mergeInto (.print c p g v o l) (.print c p' g' v' o' l') = none := by
            refine if_neg ?_
            rintro ⟨hprice, hregular, hregular', hroom⟩
            rcases hdiffers with h | h | h | h
            · exact h hprice
            · exact h hregular
            · exact h hregular'
            · omega
          rw [hqueue, mergeNewest_here (i := ⟨st, .print c p' g' v' o' l'⟩) hback rfl, hrefuses]
          rfl
    · rfl

/-- With the ribbon busy an item that stands apart joins a queue of fewer than 127 (R76). -/
theorem Tape.offer_joins {t : Tape} {item : Item} (p : Params) (rate : Nat) (now : Reading) (hmerge : t.merge item.kind = none)
    (hbusy : t.ribbon ≠ .idle) (hroom : t.queue.length < 127) :
    t.offer p rate now item = ({ t with queue := t.queue ++ [item] }, false) := by
  simp [Tape.offer, hmerge, hbusy, hroom]

/-- With the ribbon busy an item that stands apart is omitted from a queue of 127 or more (R77). -/
theorem Tape.offer_omits {t : Tape} {item : Item} (p : Params) (rate : Nat) (now : Reading) (hmerge : t.merge item.kind = none)
    (hbusy : t.ribbon ≠ .idle) (hfull : 127 ≤ t.queue.length) : t.offer p rate now item = (t.omit, true) := by
  simp [Tape.offer, hmerge, hbusy, show ¬ t.queue.length < 127 by omega]

/-- With the ribbon IDLE and nothing queued an offer is a start event of the item (R76, R80). -/
theorem Tape.offer_starts {t : Tape} {item : Item} (p : Params) (rate : Nat) (now : Reading) (hidle : t.ribbon = .idle)
    (hempty : t.queue = []) : t.offer p rate now item = ({ t with queue := [item] }.startEvent p rate now, false) := by
  have hmerge : t.merge item.kind = none := by
    unfold Tape.merge
    split
    · rfl
    · rw [hempty]
      split <;> rfl
  simp [Tape.offer, hmerge, hidle, hempty]

/-- With no OMITTED notice queued none counts (R77). -/
theorem countInNotice_none {items : List Item} (h : ∀ i ∈ items, ∀ k, i.kind ≠ .omitted k) : countInNotice items = none := by
  induction items with
  | nil => rfl
  | cons i rest ih =>
    obtain ⟨hi, hrest⟩ := List.forall_mem_cons.1 h
    unfold countInNotice
    split
    · next count hkind => exact absurd hkind (hi count)
    · rw [ih hrest]; rfl

/-- The queued OMITTED notice counts one more (R77). -/
theorem countInNotice_here {before : List Item} (h : ∀ i ∈ before, ∀ k, i.kind ≠ .omitted k) (stamp : Reading) (n : Nat)
    (later : List Item) :
    countInNotice (before ++ ⟨stamp, .omitted n⟩ :: later) =
      some (before ++ ⟨stamp, .omitted (min 999 (n + 1))⟩ :: later) := by
  induction before with
  | nil => rfl
  | cons i rest ih =>
    obtain ⟨hi, hrest⟩ := List.forall_mem_cons.1 h
    rw [List.cons_append, countInNotice]
    split
    · next count hkind => exact absurd hkind (hi count)
    · rw [ih hrest]; rfl

/-- At the moment an item is stamped it is not late. -/
theorem lateness_self (now : Reading) : lateness now now = 0 := by simp [lateness, elapsed]

/-- An item that is not late targets level 0, the enter thresholds being 1 s or more (R82). -/
theorem targetLevel_zero {p : Params} (h1 : 1 ≤ p.enter1) (h2 : 1 ≤ p.enter2) (h3 : 1 ≤ p.enter3) : targetLevel p 0 = 0 := by
  simp [targetLevel, show p.enter1 ≠ 0 by omega, show p.enter2 ≠ 0 by omega, show p.enter3 ≠ 0 by omega]

/-- With the ribbon IDLE at level 0 an item starts at once (R76, R80). -/
theorem Tape.offer_starts_normal {t : Tape} {p : Params} {kind : ItemKind} (rate : Nat) (now : Reading)
    (hidle : t.ribbon = .idle) (hempty : t.queue = []) (hlevel : t.level = 0) (homitted : t.omitted = 0)
    (h1 : 1 ≤ p.enter1) (h2 : 1 ≤ p.enter2) (h3 : 1 ≤ p.enter3) :
    t.offer p rate now ⟨now, kind⟩ =
      (let shown := itemText 0 p.blockThreshold t.shown kind
       { t with
         ribbon := .item shown (now + BitVec.ofNat 32 ((shown.length * 1000 + rate - 1) / rate))
         shown := shownAfterItem 0 t.shown kind }, false) := by
  obtain ⟨queue, ribbon, level, slot, shown, omitted⟩ := t
  simp only at hidle hempty hlevel homitted
  subst hidle hempty hlevel homitted
  have hstays : nextLevel p 0 (lateness now now) = 0 := by simp [nextLevel, lateness_self, targetLevel_zero h1 h2 h3]
  rw [Tape.offer_starts p rate now rfl rfl, Tape.startEvent_cons (head := ⟨now, kind⟩) (rest := []) p rate now rfl, if_pos hstays,
    Tape.startHead_eq (head := ⟨now, kind⟩) (rest := []) p rate now rfl]
  rfl

/-- Above level 0 an item that is not late lowers the level by one (R82). -/
theorem nextLevel_falls {p : Params} (h : p.ordered) {level : Nat} (hlow : 1 ≤ level) :
    nextLevel p level 0 = level - 1 := by
  obtain ⟨h1, h2, h3, _, hl1, _, hl2, _, hl3, _⟩ := h
  have hleave : 0 < leaveThreshold p level := by
    unfold leaveThreshold
    split <;> omega
  simp only [nextLevel, targetLevel_zero (show 1 ≤ p.enter1 by omega) (show 1 ≤ p.enter2 by omega)
    (show 1 ≤ p.enter3 by omega), Nat.not_lt_zero, if_false, hlow, hleave, and_self, if_true]

/-! ### Cancel hand-offs (R88) -/

/-- A queued item that a cancel hand-off qualifies: a PRINT of the code that holds the sequence number (R88). -/
def Item.holds (code : Code) (q : Nat) (i : Item) : Prop := ∃ p g v o l, i.kind = .print code p g v o l ∧ q ∈ l

/-- An item that does not qualify is not shrunk (R88). -/
theorem shrinkItem_none {code : Code} {q volume : Nat} {i : Item} (h : ¬ i.holds code q) :
    shrinkItem code q volume i = none := by
  unfold shrinkItem
  split
  · next c price grid v condition sequences hkind =>
    refine if_neg fun ⟨hcode, hmem⟩ => h ⟨price, grid, v, condition, sequences, ?_, hmem⟩
    rw [hkind, hcode]
  · rfl

/-- With no item that qualifies nothing is shrunk (R88). -/
theorem shrinkNewest_none {code : Code} {q : Nat} {items : List Item} (h : ∀ i ∈ items, ¬ i.holds code q) (volume : Nat) :
    shrinkNewest code q volume items = none := by
  induction items with
  | nil => rfl
  | cons i rest ih =>
    obtain ⟨hi, hrest⟩ := List.forall_mem_cons.1 h
    simp only [shrinkNewest, ih hrest, shrinkItem_none hi]

/-- The newest item that qualifies shrinks in its place, or leaves when its list is then empty (R88). -/
theorem shrinkNewest_here {code : Code} {q : Nat} {later : List Item} (hlater : ∀ i ∈ later, ¬ i.holds code q)
    {seqs : List Nat} (hmem : q ∈ seqs) (before : List Item) (stamp : Reading) (p g v volume : Nat) (o : Condition) :
    shrinkNewest code q volume (before ++ ⟨stamp, .print code p g v o seqs⟩ :: later) =
      if seqs.filter (fun x => x ≠ q) = [] then some (true, before ++ later)
      else some (false, before ++ ⟨stamp, .print code p g (v - volume) o (seqs.filter fun x => x ≠ q)⟩ :: later) := by
  have hfilter : (seqs.filter fun x => x != q) = seqs.filter fun x => x ≠ q :=
    List.filter_congr fun x _ => by simp [bne_eq_decide_ne]
  induction before with
  | nil =>
    simp only [List.nil_append, shrinkNewest, shrinkNewest_none hlater, shrinkItem, hmem, and_self, if_true, hfilter]
    by_cases hempty : seqs.filter (fun x => x ≠ q) = []
    · simp only [if_pos hempty]
    · simp only [if_neg hempty]
  | cons i rest ih =>
    simp only [List.cons_append, shrinkNewest, ih]
    by_cases hempty : seqs.filter (fun x => x ≠ q) = []
    · simp only [if_pos hempty]
    · simp only [if_neg hempty]

/-- An offer to tape A leaves tape B. -/
theorem State.offerTo_a_tapeB (s : State) (kind : ItemKind) : (s.offerTo .a kind).tapeB = s.tapeB := by
  unfold State.offerTo
  simp only
  split <;> rfl

/-- An offer to tape B leaves tape A. -/
theorem State.offerTo_b_tapeA (s : State) (kind : ItemKind) : (s.offerTo .b kind).tapeA = s.tapeA := by
  unfold State.offerTo
  simp only
  split <;> rfl

/-- A cancel hand-off to tape A leaves tape B. -/
theorem State.cancelOn_a_tapeB (s : State) (code : Code) (q p g v : Nat) : (s.cancelOn .a code q p g v).tapeB = s.tapeB := by
  unfold State.cancelOn
  split
  · rfl
  · rfl
  · exact State.offerTo_a_tapeB s _

/-- A cancel hand-off to tape B leaves tape A. -/
theorem State.cancelOn_b_tapeA (s : State) (code : Code) (q p g v : Nat) : (s.cancelOn .b code q p g v).tapeA = s.tapeA := by
  unfold State.cancelOn
  split
  · rfl
  · rfl
  · exact State.offerTo_b_tapeA s _

/-- Settles O41: offers by whether the item merges, stands apart, or finds the ribbon IDLE; hand-offs by `shrinkNewest_none` and
`shrinkNewest_here`. -/
theorem offersAndCancelsChangeQueue : Obligations.OffersAndCancelsChangeQueue := by
  refine ⟨?offers, ?cancels, ?masks⟩
  case offers =>
    intro id kind code p g g' v v' q seqs stamp before later n s old counted doneAt noPrint separate
    have omitted : ∀ {t : Tape}, old.offer s.params (s.params.rate id) s.clock ⟨s.clock, kind⟩ = (t, true) →
        s.offerTo id kind = counted (s.setTape id t) := fun h => by
      rw [State.offerTo_omitted h]
      cases id <;> rfl
    refine ⟨fun hlevel hqueue hroom hlater => ?merges, fun hseparate hbusy hroom => ?joins,
      fun hseparate hbusy hfull => ⟨fun hnone => ?counts, fun hqueue hbefore => ?notice⟩,
      fun hidle hempty hlevel homitted h1 h2 h3 => ?starts, fun hidle hempty hlow hhigh hordered => ?falls⟩
    case merges =>
      have hmerge : old.merge (.print code p g v .regular [q]) =
          some (before ++ ⟨stamp, .print code p g' (min 16777215 (v' + v)) .regular (seqs ++ [q])⟩ :: later) := by
        simp only [Tape.merge, printCode, if_pos hlevel, hqueue,
          mergeNewest_here (i := ⟨stamp, .print code p g' v' .regular seqs⟩) hlater rfl, mergeInto, true_and, if_pos hroom]
        rfl
      exact State.offerTo_taken (by simp only [Tape.offer]; rw [hmerge])
    case joins => exact State.offerTo_taken (Tape.offer_joins _ _ _ (Tape.merge_separates hseparate) hbusy hroom)
    case counts =>
      have homit := Tape.offer_omits s.params (s.params.rate id) s.clock (item := ⟨s.clock, kind⟩)
        (Tape.merge_separates hseparate) hbusy hfull
      rw [Tape.omit, countInNotice_none hnone] at homit
      exact omitted homit
    case notice =>
      have homit := Tape.offer_omits s.params (s.params.rate id) s.clock (item := ⟨s.clock, kind⟩)
        (Tape.merge_separates hseparate) hbusy hfull
      rw [Tape.omit, hqueue, countInNotice_here hbefore] at homit
      exact omitted homit
    case starts =>
      exact State.offerTo_taken (Tape.offer_starts_normal _ _ hidle hempty hlevel homitted h1 h2 h3)
    case falls =>
      have hnext : nextLevel s.params old.level (lateness s.clock s.clock) = old.level - 1 := by
        rw [lateness_self]; exact nextLevel_falls hordered hlow
      have hmoves : ¬ nextLevel s.params old.level (lateness s.clock s.clock) = old.level := by omega
      have hshown : ¬ (2 ≤ old.level - 1 ∧ old.level ≤ 1) := by omega
      rw [State.offerTo_taken (Tape.offer_starts _ _ _ hidle hempty),
        Tape.startEvent_cons (t := { s.tape id with queue := [⟨s.clock, kind⟩] }) (head := ⟨s.clock, kind⟩) _ _ _ rfl,
        if_neg hmoves]
      simp only [Tape.startNotice]
      rw [hnext, if_neg hshown]
      rfl
  case cancels =>
    intro id code q p g v p' g' v' o seqs stamp before later s old qualifies kept
    refine ⟨fun hnone => ?_, fun hqueue hmem hlater => ⟨fun hkept => ?_, fun hkept => ?_⟩⟩
    · rw [State.cancelOn, shrinkNewest_none (items := (s.tape id).queue) hnone]
    · have hshrunk := shrinkNewest_here hlater hmem before stamp p' g' v' v o
      rw [if_neg hkept, ← hqueue] at hshrunk
      rw [State.cancelOn, hshrunk]
    · have hleft := shrinkNewest_here hlater hmem before stamp p' g' v' v o
      rw [if_pos hkept, ← hqueue] at hleft
      rw [State.cancelOn, hleft]
      simp only [Tape.departed_eq]
      rfl
  case masks =>
    intro kind code q p g v s
    exact ⟨rfl, rfl, rfl, rfl, State.offerTo_a_tapeB s kind, State.offerTo_b_tapeA s kind, rfl, rfl, rfl, rfl,
      State.cancelOn_a_tapeB s code q p g v, State.cancelOn_b_tapeA s code q p g v⟩

end Sys2Proof.Machine
end



section
/-! PROOF. The price boards: a block's assembly, marking, a block's characters, and its outcomes (R101, R103 to R108, R110, R113,
section 10.5). -/

namespace Sys2Proof.Machine

/-! ### Assembly (R103, R110) -/

/-- A cell of an OUT panel does not wait (R103). -/
theorem Board.not_mem_waiting_out (b : Board) (passed : List Nat) {x : Nat} (h : b.panelState (x / 64) = .out) :
    x ∉ b.waiting passed := by
  intro hmem
  have hkept := (List.mem_filter.1 hmem).2
  rw [Bool.and_eq_true] at hkept
  have hprobing := ((b.unprobed_iff (x / 64)).1 hkept.2).1
  rw [h] at hprobing
  cases hprobing

/-- A cell passed over of a PROBING panel with no assigned cells waits by the free value (R110, assumption 40). -/
theorem Board.mem_waiting_unprobed (b : Board) {passed : List Nat} {x : Nat} (hmem : x ∈ passed)
    (h : b.unprobed (x / 64) = true) : x ∈ b.waiting passed ↔ Config.unprobedCellWaits = true := by
  simp [Board.waiting, panelOf, hmem, h]

/-- A block is assembled of the first cells of the panel of the first cell that is not passed over (R103). -/
theorem State.assemble_takes {s : State} {passed rest : List Nat} {c : Nat} (hnodup : s.board.dirty.Nodup)
    (hsize : 1 ≤ s.params.blockSize) (hrunning : s.board.pause = .running) (hnone : s.board.block = none)
    (hdirty : s.board.dirty = passed ++ c :: rest) (hpassed : ∀ x ∈ passed, s.board.passedOver x = true)
    (hc : s.board.passedOver c = false) :
    s.assemble =
      (let cells := (c :: rest.filter fun x => x / 64 = c / 64).take s.params.blockSize
       { s with board := { s.board with
          dirty := s.board.waiting passed ++ rest.filter fun x => x ∉ cells
          block := some (s.makeBlock (c / 64) cells) } }) := by
  obtain ⟨hfront, hdrop⟩ := passedOver_split s.board passed rest c hpassed hc
  rw [hdirty, List.nodup_append, List.nodup_cons] at hnodup
  obtain ⟨_, ⟨hfresh, hrest⟩, _⟩ := hnodup
  obtain ⟨htaken, hleft⟩ := takePanel_spec (c / 64) (s.params.blockSize - 1) rest hrest
  have hcells : (c :: rest.filter fun x => x / 64 = c / 64).take s.params.blockSize =
      c :: (takePanel (panelOf c) (s.params.blockSize - 1) rest).1 := by
    obtain ⟨size, hsize'⟩ := Nat.exists_eq_add_of_le' hsize
    rw [panelOf, htaken, hsize', List.take_succ_cons, Nat.add_sub_cancel]
  have hkept : (takePanel (panelOf c) (s.params.blockSize - 1) rest).2 =
      rest.filter fun x => x ∉ c :: (takePanel (panelOf c) (s.params.blockSize - 1) rest).1 := by
    rw [panelOf, hleft]
    refine List.filter_congr fun x hx => ?_
    have hne : x ≠ c := fun h => hfresh (h ▸ hx)
    simp [hne]
  have hhead := hdirty ▸ hfront
  have htail := hdirty ▸ hdrop
  simp only [State.assemble, if_pos (And.intro hrunning hnone), hhead, htail, hcells]
  rw [← hkept]
  rfl

/-- With every queued cell passed over none is taken (R103, R110). -/
theorem State.assemble_passes {s : State} (hrunning : s.board.pause = .running) (hnone : s.board.block = none)
    (hall : ∀ x ∈ s.board.dirty, s.board.passedOver x = true) :
    s.assemble = { s with board := { s.board with dirty := s.board.waiting s.board.dirty } } := by
  obtain ⟨hfront, hdrop⟩ := passedOver_all s.board s.board.dirty hall
  simp only [State.assemble, if_pos (And.intro hrunning hnone), hfront, hdrop]

/-- Nothing is assembled unless the board is RUNNING with no block in flight (R103). -/
theorem State.assemble_waits {s : State} (h : s.board.pause ≠ .running ∨ s.board.block ≠ none) : s.assemble = s := by
  refine if_neg ?_
  rintro ⟨hrunning, hnone⟩
  exact h.elim (· hrunning) (· hnone)

/-! ### Marking (R101) -/

/-- Cells no two alike join the tail in their order, those already queued left out (R101). -/
theorem markCells_eq {cells : List Nat} (h : cells.Nodup) (dirty : List Nat) :
    markCells dirty cells = dirty ++ cells.filter fun x => x ∉ dirty := by
  induction cells generalizing dirty with
  | nil => simp [markCells]
  | cons c rest ih =>
    obtain ⟨hfresh, hrest⟩ := List.nodup_cons.1 h
    show markCells (markCell dirty c) rest = _
    rw [ih hrest]
    by_cases hc : c ∈ dirty
    · rw [markCell, if_pos hc, List.filter_cons_of_neg (by simpa using hc)]
    · have hsame : (rest.filter fun x => x ∉ dirty ++ [c]) = rest.filter fun x => x ∉ dirty :=
        List.filter_congr fun x hx => by
          have hne : x ≠ c := fun h => hfresh (h ▸ hx)
          simp [hne]
      rw [markCell, if_neg hc, hsame, List.filter_cons_of_pos (by simpa using hc), List.append_assoc, List.singleton_append]

/-! ### A block's characters (section 10.5) -/

/-- A number's characters are read back modulo what they can carry. -/
theorem numberOf_charactersOf_mod (width value : Nat) : numberOf (charactersOf width value) = value % 256 ^ width := by
  rw [numberOf, foldl_charactersOf, Nat.zero_mul, Nat.zero_add]

/-- A number at the front of characters is read back modulo what its width can carry. -/
theorem fieldOf_front_mod (width value : Nat) (rest : List Byte) :
    fieldOf (charactersOf width value ++ rest) 0 width = value % 256 ^ width := by
  rw [fieldOf, slice_front (length_charactersOf width value), numberOf_charactersOf_mod]

/-- The fields of a cell update in their order (section 10.5). -/
theorem updateCharacters_eq (u : CellUpdate) :
    updateCharacters u =
      charactersOf 1 u.cell ++ (codeCharacters u.symbol ++
        ((filled 11 (fieldText Config.priceDashes u.price)).map boardCharacter ++
          ((filled 12 (fieldText Config.changeDashes u.change)).map boardCharacter ++
            (charactersOf 3 u.volume ++ (charactersOf 1 (tickNumber u.tick) ++
              charactersOf 1 (attributeNumber u.attributes)))))) := by
  simp only [updateCharacters, List.append_assoc]

/-- A field text mapped to board characters has its field's width. -/
theorem length_boardField (width : Nat) (text : Text) : ((filled width text).map boardCharacter).length = width := by
  rw [List.length_map, length_filled]

/-- The symbol of an update (section 10.5). -/
theorem updateCharacters_symbol (u : CellUpdate) : slice (updateCharacters u) 1 5 = codeCharacters u.symbol := by
  rw [updateCharacters_eq, slice_skip (by simp), length_charactersOf]
  exact slice_front (length_codeCharacters u.symbol) _

/-- The price of an update (section 10.5). -/
theorem updateCharacters_price (u : CellUpdate) :
    slice (updateCharacters u) 6 11 = (filled 11 (fieldText Config.priceDashes u.price)).map boardCharacter := by
  rw [updateCharacters_eq, slice_skip (by simp), slice_skip (by simp), length_charactersOf, length_codeCharacters]
  exact slice_front (length_boardField 11 _) _

/-- The change of an update (section 10.5). -/
theorem updateCharacters_change (u : CellUpdate) :
    slice (updateCharacters u) 17 12 = (filled 12 (fieldText Config.changeDashes u.change)).map boardCharacter := by
  rw [updateCharacters_eq, slice_skip (by simp), slice_skip (by simp), slice_skip (by simp), length_charactersOf,
    length_codeCharacters, length_boardField]
  exact slice_front (length_boardField 12 _) _

/-- The volume of an update (section 10.5). -/
theorem updateCharacters_volume (u : CellUpdate) : fieldOf (updateCharacters u) 29 3 = u.volume % 256 ^ 3 := by
  rw [updateCharacters_eq, fieldOf_skip (by simp), fieldOf_skip (by simp), fieldOf_skip (by simp), fieldOf_skip (by simp),
    length_charactersOf, length_codeCharacters, length_boardField, length_boardField]
  exact fieldOf_front_mod 3 _ _

/-- The tick of an update (section 10.5). -/
theorem updateCharacters_tick (u : CellUpdate) : fieldOf (updateCharacters u) 32 1 = tickNumber u.tick % 256 ^ 1 := by
  rw [updateCharacters_eq, fieldOf_skip (by simp), fieldOf_skip (by simp), fieldOf_skip (by simp), fieldOf_skip (by simp),
    fieldOf_skip (by simp), length_charactersOf, length_codeCharacters, length_boardField, length_boardField,
    length_charactersOf]
  exact fieldOf_front_mod 1 _ _

/-- The attributes of an update (section 10.5). -/
theorem updateCharacters_attributes (u : CellUpdate) :
    fieldOf (updateCharacters u) 33 1 = attributeNumber u.attributes % 256 ^ 1 := by
  rw [updateCharacters_eq, fieldOf_skip (by simp), fieldOf_skip (by simp), fieldOf_skip (by simp), fieldOf_skip (by simp),
    fieldOf_skip (by simp), fieldOf_skip (by simp), length_charactersOf, length_codeCharacters, length_boardField,
    length_boardField, length_charactersOf, length_charactersOf, ← List.append_nil (charactersOf 1 (attributeNumber _))]
  exact fieldOf_front_mod 1 _ _

/-- The last character of an update, bit by bit, BLANK the lowest (section 10.5). -/
theorem attributeNumber_eq (a : Attributes) :
    attributeNumber a % 256 = (if a.blank then 1 else 0) + (if a.halted then 2 else 0) + (if a.fast then 4 else 0) +
      (if a.stale then 8 else 0) + (if a.overflow then 16 else 0) := by
  obtain ⟨blank, halted, fast, stale, overflow⟩ := a
  revert blank halted fast stale overflow
  decide

/-- Among characters that come in groups of one width each group stands at its place. -/
theorem slice_flatten {groups : List (List Byte)} {width i : Nat} {group : List Byte}
    (hwidth : ∀ g ∈ groups, g.length = width) (hi : groups[i]? = some group) (tail : List Byte) :
    slice (groups.flatten ++ tail) (width * i) width = group := by
  induction groups generalizing i with
  | nil => cases hi
  | cons g rest ih =>
    obtain ⟨hg, hrest⟩ := List.forall_mem_cons.1 hwidth
    rw [List.flatten_cons, List.append_assoc]
    cases i with
    | zero =>
      obtain rfl : g = group := Option.some.inj hi
      exact slice_front hg _
    | succ k =>
      rw [slice_skip (by rw [hg]; exact Nat.le_mul_of_pos_right width k.succ_pos), hg, Nat.mul_succ, Nat.add_sub_cancel]
      exact ih hrest hi

/-- The sum of a block's characters from panel to the end of the last update (section 10.5). -/
theorem sum_blockBody {panel : Nat} {updates : List CellUpdate} (hpanel : panel < 256) (hcount : updates.length < 256) :
    ((blockBody panel updates).map BitVec.toNat).sum =
      panel + updates.length + (updates.map fun u => ((updateCharacters u).map BitVec.toNat).sum).sum := by
  have hone : ∀ value, value < 256 → ((charactersOf 1 value).map BitVec.toNat).sum = value := fun value h => by
    simp [charactersOf, Nat.mod_eq_of_lt h]
  have hupdates : (((updates.map updateCharacters).flatten).map BitVec.toNat).sum =
      (updates.map fun u => ((updateCharacters u).map BitVec.toNat).sum).sum := by
    induction updates with
    | nil => rfl
    | cons u rest ih =>
      simp only [List.map_cons, List.flatten_cons, List.map_append, List.sum_append, List.sum_cons,
        ih (Nat.lt_of_succ_lt hcount)]
  simp only [blockBody, List.map_append, List.sum_append, hone _ hpanel, hone _ hcount, hupdates]

section
variable {b : Block}

/-- A block's parts on BOARD OUT in their order (section 10.5). -/
theorem Block.characters_eq (b : Block) :
    b.characters = [170#8] ++ (charactersOf 1 b.panel ++ (charactersOf 1 b.updates.length ++
      ((b.updates.map updateCharacters).flatten ++ charactersOf 2 b.check))) := by
  simp [Block.characters, blockBody]

/-- A block's length: start, panel, count and check around the updates (section 10.5). -/
theorem Block.length_characters (b : Block) : b.characters.length = 5 + 34 * b.updates.length := by
  simp only [Block.characters_eq, List.length_append, length_charactersOf, length_updates, List.length_singleton]
  omega

/-- A block's panel is read back (section 10.5). -/
theorem Block.fieldOf_panel (h : b.panel < 256) : fieldOf b.characters 1 1 = b.panel := by
  rw [Block.characters_eq, fieldOf_skip (by simp)]
  exact fieldOf_front (decide_eq_true h) _

/-- A block's count is read back (section 10.5). -/
theorem Block.fieldOf_count (h : b.updates.length < 256) : fieldOf b.characters 2 1 = b.updates.length := by
  rw [Block.characters_eq, fieldOf_skip (by simp), fieldOf_skip (by simp)]
  exact fieldOf_front (decide_eq_true h) _

/-- A block's updates stand one after another from its fourth character on (section 10.5). -/
theorem Block.slice_update {i : Nat} {u : CellUpdate} (h : b.updates[i]? = some u) :
    slice b.characters (3 + 34 * i) 34 = updateCharacters u := by
  have hplace : 3 + 34 * i - [170#8].length - (charactersOf 1 b.panel).length - (charactersOf 1 b.updates.length).length =
      34 * i := by
    simp only [List.length_singleton, length_charactersOf]
    omega
  rw [Block.characters_eq, slice_skip (by simp; omega), slice_skip (by simp; omega), slice_skip (by simp), hplace]
  refine slice_flatten (fun g hg => ?_) (by rw [List.getElem?_map, h, Option.map_some]) _
  obtain ⟨v, _, rfl⟩ := List.mem_map.1 hg
  exact length_updateCharacters v

/-- A block's check is read back from its last two characters (section 10.5). -/
theorem Block.fieldOf_check (h : b.check = blockCheck b.panel b.updates) :
    fieldOf b.characters (3 + 34 * b.updates.length) 2 = b.check := by
  have hfits : fits 2 b.check = true := by
    rw [h, blockCheck, fits, decide_eq_true_eq]
    exact Nat.mod_lt _ (by norm_num)
  have hplace : 3 + 34 * b.updates.length - [170#8].length - (charactersOf 1 b.panel).length -
      (charactersOf 1 b.updates.length).length - ((b.updates.map updateCharacters).flatten).length = 0 := by
    simp only [List.length_singleton, length_charactersOf, length_updates]
    omega
  rw [Block.characters_eq, fieldOf_skip (by simp; omega), fieldOf_skip (by simp; omega), fieldOf_skip (by simp),
    fieldOf_skip (by simp only [length_updates, List.length_singleton, length_charactersOf]; omega), hplace]
  exact fieldOf_whole hfits

end

/-- Settles O42: assembly by `State.assemble_takes`, marking by `markCells_eq`, the characters field by field. -/
theorem blocksGatherOnePanel : Obligations.BlocksGatherOnePanel := by
  refine ⟨?assembly, ?marking, ?update, ?block⟩
  case assembly =>
    intro passed rest c s hlawful hsize cells updates out unprobed
    obtain ⟨hnodup, _⟩ := hlawful
    have passedIff : ∀ x, s.board.passedOver x = true ↔ out x ∨ unprobed x := fun x => by
      rw [Board.passedOver_iff, Board.unprobed_iff]
    refine ⟨fun x => s.board.not_mem_waiting_out passed,
      fun x hmem h => s.board.mem_waiting_unprobed hmem ((s.board.unprobed_iff _).2 h), s.board.waiting_sublist passed,
      fun hrunning hnone hdirty hpassed hout hunprobed => ?_, fun hrunning hnone hall => ?_, fun h => ?_⟩
    · have hc : s.board.passedOver c = false :=
        eq_false_of_ne_true fun h => ((passedIff c).1 h).elim hout hunprobed
      exact congrArg Host.Outcome.next
        (State.assemble_takes hnodup hsize hrunning hnone hdirty (fun x hx => (passedIff x).2 (hpassed x hx)) hc)
    · exact congrArg Host.Outcome.next (State.assemble_passes hrunning hnone fun x hx => (passedIff x).2 (hall x hx))
    · exact congrArg Host.Outcome.next (State.assemble_waits h)
  case marking =>
    intro dirty cells cell b
    exact ⟨fun h => if_pos h, fun h => if_neg h, rfl, rfl, fun h => markCells_eq h dirty, rfl⟩
  case update =>
    intro u characters shown set
    refine ⟨length_updateCharacters u, ?_, updateCharacters_symbol u, ?_, ?_, by decide, updateCharacters_volume u, ?_, ?_⟩
    · show fieldOf (updateCharacters u) 0 1 = _
      rw [updateCharacters_eq]
      exact fieldOf_front_mod 1 _ _
    · exact (updateCharacters_price u).trans (by cases u.price <;> rfl)
    · exact (updateCharacters_change u).trans (by cases u.change <;> rfl)
    · exact (updateCharacters_tick u).trans (by cases u.tick <;> rfl)
    · exact (updateCharacters_attributes u).trans (attributeNumber_eq u.attributes)
  case block =>
    intro i u b hpanel hcount
    exact ⟨b.length_characters, fieldOf_kind 170#8 _, Block.fieldOf_panel hpanel, Block.fieldOf_count hcount,
      Block.slice_update, Block.fieldOf_check, congrArg (· % 65536) (sum_blockBody hpanel hcount)⟩

/-! ### A block's outcome (R104 to R108, R113) -/

section
variable {b : Board} {n : Nat} {p : Panel}

/-- A panel changed is one panel set. -/
theorem Board.modifyPanel_eq (hp : b.panels[n]? = some p) (f : Panel → Panel) :
    b.modifyPanel n f = { b with panels := b.panels.set n (f p) } := by
  rw [Board.modifyPanel, List.modify_eq_set_getElem?, hp]
  rfl

/-- A panel's state is read at its number. -/
theorem Board.panelState_eq (hp : b.panels[n]? = some p) : b.panelState n = p.state := by
  rw [Board.panelState, hp]

/-- A success leaves the panel IN with count 0 (R105, R110). -/
theorem Board.succeed_eq (hp : b.panels[n]? = some p) (hstate : p.state ≠ .out) :
    b.succeed n = { b with
      panels := b.panels.set n ⟨.inService, 0⟩
      block := none
      pause := if b.pause = .pausing then .paused else b.pause } := by
  have hin : (if p.state = .probing then PanelState.inService else p.state) = .inService := by
    cases hs : p.state with
    | out => exact absurd hs hstate
    | inService => rfl
    | probing => rfl
  rw [Board.succeed, Board.modifyPanel_eq hp, hin]
  rfl

/-- The panel that a failure makes OUT has count 8, and its cells leave the queue (R108). -/
theorem Board.giveUp_eq (hp : b.panels[n]? = some p) :
    b.giveUp n = { b with
      panels := b.panels.set n ⟨.out, 8⟩
      dirty := b.dirty.filter fun c => c / 64 ≠ n } := by
  have hfilter : (b.dirty.filter fun c => panelOf c != n) = b.dirty.filter fun c => c / 64 ≠ n :=
    List.filter_congr fun c _ => by rw [bne_eq_decide_ne, panelOf]
  rw [Board.giveUp, Board.modifyPanel_eq hp, hfilter]

end

/-- A failure of an IN panel short of its eighth counts and requeues; any other makes the panel OUT (R107, R108). -/
theorem Board.failPanel_eq {b : Board} {blk : Block} {p : Panel} (hp : b.panels[blk.panel]? = some p) (hstate : p.state ≠ .out) :
    b.failPanel blk =
      if p.state = .inService ∧ p.failures < 7 then { b with
        panels := b.panels.set blk.panel ⟨.inService, p.failures + 1⟩
        dirty := markCells b.dirty (blk.cells.filter fun c => (tableGet b.cellMap c).isSome) }
      else { b with
        panels := b.panels.set blk.panel ⟨.out, 8⟩
        dirty := b.dirty.filter fun c => c / 64 ≠ blk.panel } := by
  obtain ⟨state, failures⟩ := p
  simp only [Board.failPanel, hp, Board.giveUp_eq hp, Board.modifyPanel_eq hp]
  cases state with
  | out => exact absurd rfl hstate
  | probing => simp
  | inService =>
    by_cases hlast : failures < 7
    · have hcounts : failures + 1 < 8 := by omega
      simp only [hlast, hcounts, true_and, if_true]
      rfl
    · have heighth : ¬ failures + 1 < 8 := by omega
      simp only [hlast, heighth, and_false, if_false]

/-- Settles O44: what the answer says decides success, failure or discard, and `Board.succeed_eq` and `Board.failPanel_eq` say
what each does. -/
theorem blockOutcomesMovePanels : Obligations.BlockOutcomesMovePanels := by
  unfold Obligations.BlockOutcomesMovePanels
  intro panel count check more blk p s hlawful hblock hp after succeeded failed right
  obtain ⟨_, _, hfour, _, _, hflying⟩ := hlawful
  have hstate : p.state ≠ .out := by rw [← Board.panelState_eq hp]; exact hflying blk hblock
  have hsmall : blk.panel ≤ 3 := by
    have := (List.getElem?_eq_some_iff.1 hp).1
    omega
  have hsucceeds : { s with board := s.board.succeed blk.panel } = succeeded := by rw [Board.succeed_eq hp hstate]
  have hfails : s.failBlock blk = failed := by
    simp only [State.failBlock, Board.failPanel_eq hp hstate, failed]
    split <;> rfl
  have answered : panel.toNat = blk.panel → exec (.boardAnswer panel count check) s =
      if count.toNat = blk.cells.length ∧ check.toNat = blk.check % 256 then .next succeeded else .next failed := fun h => by
    have hread : ¬ (3 < panel.toNat ∨ panel.toNat ≠ blk.panel) := by omega
    simp only [exec, execBoardAnswer, hblock, if_neg hread, hsucceeds, hfails]
  have gap : ∀ characters, exec (.boardAnswerGap characters) s =
      if readablePanel characters = some blk.panel then .next failed else .next s := fun characters => by
    simp only [exec, execBoardAnswerGap, hblock, hfails]
  have deadline : exec .blockDeadline s = if reached s.clock blk.deadline then .next failed else .next s := by
    simp only [exec, execBlockDeadline, hblock, hfails]
  refine ⟨fun h hright => (answered h).trans (if_pos hright), fun h hwrong => (answered h).trans (if_neg hwrong), fun h => ?_,
    fun h => (gap _).trans (if_pos ?_), gap [], gap [171#8], fun h => (gap _).trans (if_neg ?_),
    fun h => deadline.trans (if_pos h), fun h => deadline.trans (if_neg (by simp [h]))⟩
  · simp only [exec, execBoardAnswer, hblock, if_pos (Or.inr h : 3 < panel.toNat ∨ panel.toNat ≠ blk.panel)]
  · rw [readablePanel, if_pos ⟨rfl, by omega⟩, h]
  · rw [readablePanel]
    split
    · exact fun hsome => h (Option.some.inj hsome)
    · exact fun hsome => by cases hsome

end Sys2Proof.Machine
end



section
/-! PROOF. How transactions end and deliveries begin, the stuck line, and frames out of their phase (R123, R129 to R139, R153,
R193). -/

namespace Sys2Proof.Machine

/-! ### Frames out of their phase (R134, R135) -/

/-- A frame whose phase does not await it during a transaction: counted as a phase fault, the line freed (R134). -/
theorem State.strayFrame_faults {s : State} {u : Transaction} {st : Station} (hu : s.desk.transaction = some u)
    (hst : s.desk.stations[u.station]? = some st) :
    s.strayFrame = (s.withStation u.station { st with counters := { st.counters with
      phaseFaults := min 65535 (st.counters.phaseFaults + 1) } }).lineFreed :=
  State.abort_eq s u st Station.countPhaseFault hu hst

/-- Outside a transaction no request is taken (R134). -/
theorem State.takeRequest_none {s : State} (h : s.desk.transaction = none) (serve : Transaction → State) :
    s.takeRequest serve = s := by simp only [State.takeRequest, h]

/-- A request that the phase does not await is a stray frame (R134). -/
theorem State.takeRequest_stray {s : State} {u : Transaction} (hu : s.desk.transaction = some u)
    (h : s.desk.line ≠ .request ∨ u.held ≠ none) (serve : Transaction → State) : s.takeRequest serve = s.strayFrame := by
  have hnot : requestAwaited s u = false := by
    rcases h with h | h <;> simp [requestAwaited, h]
  simp only [State.takeRequest, hu, hnot, Bool.false_eq_true, if_false]

/-- The rows of request frames, whole, with a right echo or a wrong one (R128, R144). -/
def requestRows (code : Code) (above below : Option Nat) (move : Bool) (mode interval : Nat) : List Instr :=
  [.checkError, .quoteRequest code, .recent code, .watchPage, .watchAdd code above below move, .watchDrop code,
    .setMode mode interval, .unknownRequestKind]

/-- Every request frame is taken as the phase awaits it (R128, R134). -/
theorem exec_requestRow {c : Instr} {code : Code} {above below : Option Nat} {move : Bool} {mode interval : Nat}
    (h : c ∈ requestRows code above below move mode interval) (s : State) :
    ∃ serve, exec c s = .next (s.takeRequest serve) := by
  simp only [requestRows, List.mem_cons, List.not_mem_nil, or_false] at h
  rcases h with rfl | rfl | rfl | rfl | rfl | rfl | rfl | rfl <;> exact ⟨_, rfl⟩

/-- Settles O53: requests by `exec_requestRow`, the other frames by the line state that each awaits. -/
theorem strayFramesAreFaults : Obligations.StrayFramesAreFaults := by
  unfold Obligations.StrayFramesAreFaults
  intro code above below move n mode interval st u s requests fault
  have row : ∀ c ∈ requests, ∃ serve, exec c s = .next (s.takeRequest serve) := fun c hc => exec_requestRow hc s
  refine ⟨fun hnone => ?outside, fun hu hst => ?during, fun hline => ?incomplete⟩
  case outside =>
    have hstray : s.strayFrame = s := State.abort_none s _ hnone
    refine ⟨fun c hc => ?_, fun hline => ?_⟩
    · rcases List.mem_append.1 hc with hc | hc
      · obtain ⟨serve, hserve⟩ := row c hc
        rw [hserve, State.takeRequest_none hnone]
      · simp only [List.mem_cons, List.not_mem_nil, or_false] at hc
        rcases hc with rfl | rfl | rfl | rfl
        · simp only [exec, execReady, hnone]
        · simp only [exec, execReceipt, hnone]
        · simp only [exec, execAnswer, hnone]
        · simp only [exec, execDeskFrameIncomplete, State.checkErrorFrame, State.takeRequest_none hnone, ite_self]
    · simp only [exec, execSlotAnswer, if_neg hline, hstray]
  case during =>
    have hstray : s.strayFrame = fault := State.strayFrame_faults hu hst
    refine ⟨fun h c hc => ?_, fun hline hheld => ?_, fun hline => ?_, fun hline => ?_, fun hline => ?_⟩
    · obtain ⟨serve, hserve⟩ := row c hc
      rw [hserve, State.takeRequest_stray hu h, hstray]
    · simp only [exec, execDeskFrameIncomplete, if_pos hline, State.checkErrorFrame, State.takeRequest_stray hu (.inr hheld),
        hstray]
    · simp only [exec, execReady, hu, if_neg hline, hstray]
    · simp only [exec, execAnswer, hu, if_neg hline, hstray]
    · simp only [exec, execSlotAnswer, if_neg hline, hstray]
  case incomplete => simp only [exec, execDeskFrameIncomplete, if_neg hline]

/-! ### The signals and the stuck deadline (R134, R136, R137) -/

/-- DESK BUSY lost in a phase that needs it aborts the transaction as lost (R134). -/
theorem exec_signalChange_lost {s : State} (attn : Bool) (hphase : busyPhase s.desk.line = true) (hbusy : s.desk.busy = true) :
    exec (.deskSignalChange attn false) s = .next ((s.signals attn false).abort Station.countLost) :=
  if_pos ⟨hphase, hbusy, rfl⟩

/-- Every other change of the signals is seen by the line as it stands (R134, R136). -/
theorem exec_signalChange_seen {s : State} {busy : Bool} (attn : Bool)
    (h : busyPhase s.desk.line = false ∨ s.desk.busy = false ∨ busy = true) :
    exec (.deskSignalChange attn busy) s = .next (s.signals attn busy).signalsSeen := by
  refine if_neg ?_
  rintro ⟨hphase, hbusy, hlost⟩
  rcases h with h | h | h
  · exact Bool.false_ne_true (h.symm.trans hphase)
  · exact Bool.false_ne_true (h.symm.trans hbusy)
  · exact Bool.false_ne_true (hlost.symm.trans h)

/-- The phases that DESK BUSY must hold (R134). -/
theorem busyPhase_iff (line : LineState) : busyPhase line = true ↔ line = .request ∨ line = .reply ∨ line = .delivery := by
  cases line <;> simp [busyPhase]

/-- A line neither FREE nor STUCK makes nothing of the signals (R136, R137). -/
theorem State.signalsSeen_rest {s : State} (hfree : s.desk.line ≠ .free) (hstuck : s.desk.line ≠ .stuck) :
    s.signalsSeen = s := by
  unfold State.signalsSeen
  split
  · next h => exact absurd h hfree
  · next h => exact absurd h hstuck
  · rfl

/-- A STUCK line with a signal held stays as it is (R137). -/
theorem State.signalsSeen_stuck {s : State} (hstuck : s.desk.line = .stuck) (h : s.desk.attn = true ∨ s.desk.busy = true) :
    s.signalsSeen = s := by
  have hsignal : (s.desk.attn || s.desk.busy) = true := Bool.or_eq_true _ _ ▸ h
  simp only [State.signalsSeen, hstuck, hsignal, if_true]

/-- The stuck deadline as a FREE line watches it: cleared with neither signal held, otherwise kept, or set (R136). -/
theorem stuckWatched_eq (deadline : Reading) (d : Desk) :
    stuckWatched deadline d = { d with stuckAt :=
      if d.attn = false ∧ d.busy = false then none else some (d.stuckAt.getD deadline) } := by
  obtain ⟨stations, line, transaction, answered, slot, attn, busy, stuckAt, retryAt, alternation, lastAlert, lastRoutine, scanAt,
    scanPrevious⟩ := d
  simp only [stuckWatched]
  cases attn <;> cases busy <;> cases stuckAt <;> rfl

/-- A held signal with the deadline reached: the expiry is held for the line's becoming FREE (R136). -/
theorem State.expiryHeld_eq {s : State} {at_ : Reading} (hstuck : s.desk.stuckAt = some at_) (h : reached s.clock at_ = true) :
    s.expiryHeld = (s.desk.attn || s.desk.busy) := by
  simp [State.expiryHeld, hstuck, due, h]

/-- With neither signal held no expiry is held (R136). -/
theorem State.expiryHeld_false {s : State} (h : ¬ (s.desk.attn = true ∨ s.desk.busy = true)) : s.expiryHeld = false := by
  rw [← Bool.or_eq_true, Bool.not_eq_true] at h
  rw [State.expiryHeld, h, Bool.and_false]

/-- An expiry held is taken as the line becomes FREE (R136). -/
theorem State.freeLine_held {s : State} (h : s.expiryHeld = true) :
    s.freeLine = { s with desk := { s.desk with
      line := .clearing, transaction := none, answered := [], stuckAt := none, retryAt := none } } := by
  rw [State.freeLine, Desk.freed, if_pos h]
  rfl

/-- With neither signal held the line becomes FREE and the deadline is cleared (R136). -/
theorem State.freeLine_quiet {s : State} (h : ¬ (s.desk.attn = true ∨ s.desk.busy = true)) :
    s.freeLine = { s with desk := { s.desk with line := .free, transaction := none, answered := [], stuckAt := none } } := by
  have hsignals : s.desk.attn = false ∧ s.desk.busy = false := by
    rw [not_or, Bool.not_eq_true, Bool.not_eq_true] at h
    exact h
  rw [State.freeLine_eq, State.lineFreed, if_pos hsignals]

/-- In a claim round that no station answered no station claims (R125). -/
theorem Desk.claims_none {d : Desk} (h : d.answered = []) (m : Nat) (x : Station) : ¬ d.claims m x := by
  rintro ⟨_, hmem, _⟩
  rw [h] at hmem
  cases hmem

/-- Settles O52: the signals by whether they abort, the deadlines by `State.freeLine_held` and `State.freeLine_quiet`. -/
theorem stuckLineIsCleared : Obligations.StuckLineIsCleared := by
  unfold Obligations.StuckLineIsCleared
  intro n attn busy u st at_ s h16 seen clearing held
  have rest : ∀ line, s.desk.line = line → busyPhase line = false → line ≠ .free → line ≠ .stuck →
      exec (.deskSignalChange attn busy) s = .next seen := fun line hline hphase hfree hstuck => by
    subst hline
    rw [exec_signalChange_seen attn (.inl hphase), State.signalsSeen_rest (s := s.signals attn busy) hfree hstuck]
    rfl
  refine ⟨fun hphase hbusy hu hst => ?lost, fun hphase hkept => ?kept, fun hfree => ?free, fun hstuck hattn hbusy => ?stuckFreed,
    fun hstuck hheld => ?stuckStays, fun hline => ?others, fun hfree hdeadline hreached hheld => ?expires, fun h => ?waits,
    fun hclaim hanswered hdeadline hreached => ⟨fun hheld => ?voidHeld, fun hquiet => ?voidQuiet⟩, fun hline hheld => ?cleared,
    fun hline hquiet => ?clearedFree, fun hline hretry hreached => ?retries, fun hline => ?noRetry,
    fun hst => ⟨fun hstream hreached => ?streams, fun hnone => ?noStream⟩⟩
  case lost =>
    rw [exec_signalChange_lost attn ((busyPhase_iff _).2 hphase) hbusy]
    exact congrArg _ (State.abort_eq (s.signals attn false) u st Station.countLost hu hst)
  case kept =>
    have hfree : s.desk.line ≠ .free := fun h => by rw [h] at hphase; simp at hphase
    have hstuck : s.desk.line ≠ .stuck := fun h => by rw [h] at hphase; simp at hphase
    rw [exec_signalChange_seen attn (.inr hkept), State.signalsSeen_rest (s := s.signals attn busy) hfree hstuck]
    rfl
  case free =>
    have hseen : (s.signals attn busy).signalsSeen =
        { s.signals attn busy with desk := stuckWatched (stuckDeadline s) (s.signals attn busy).desk } := by
      simp only [State.signalsSeen, State.signals, hfree]
      rfl
    rw [exec_signalChange_seen attn (.inl (by rw [hfree]; rfl)), hseen, stuckWatched_eq]
    rfl
  case stuckFreed =>
    subst hattn hbusy
    have hseen : (s.signals false false).signalsSeen =
        State.freeLine { seen with desk := { seen.desk with retryAt := none } } := by
      simp only [State.signalsSeen, State.signals, hstuck]
      rfl
    rw [exec_signalChange_seen false (.inl (by rw [hstuck]; rfl)), hseen, State.freeLine_eq]
  case stuckStays =>
    rw [exec_signalChange_seen attn (.inl (by rw [hstuck]; rfl)),
      State.signalsSeen_stuck (s := s.signals attn busy) hstuck hheld]
    rfl
  case others =>
    rcases hline with h | h | h | h <;> exact rest _ h rfl (by decide) (by decide)
  case expires =>
    have hdue : s.stuckDue = true := by
      rw [State.stuckDue, State.expiryHeld_eq hdeadline hreached, hfree, decide_eq_true rfl, Bool.true_and, Bool.or_eq_true]
      exact hheld
    exact if_pos hdue
  case waits =>
    have hnot : s.stuckDue = false := by
      rcases h with h | h
      · rw [State.stuckDue, decide_eq_false h, Bool.false_and]
      · rw [State.stuckDue, State.expiryHeld_false h, Bool.and_false]
    exact if_neg (by simp [hnot])
  case voidHeld =>
    have hexpiry : s.expiryHeld = true := by
      rw [State.expiryHeld_eq hdeadline hreached, Bool.or_eq_true]
      exact hheld
    refine (claimRound_void hclaim fun m x => Desk.claims_none hanswered m x).trans ?_
    rw [State.freeLine_held hexpiry, ← hanswered]
  case voidQuiet =>
    refine (claimRound_void hclaim fun m x => Desk.claims_none hanswered m x).trans ?_
    rw [State.freeLine_quiet hquiet, ← hanswered]
  case cleared =>
    have hsignal : (s.desk.attn || s.desk.busy) = true := Bool.or_eq_true _ _ ▸ hheld
    simp only [exec, execClearSequenceCompletion, hline, ne_eq, not_true_eq_false, if_false, hsignal, if_true]
    rfl
  case clearedFree =>
    have hsignal : (s.desk.attn || s.desk.busy) = false := by
      rw [← Bool.not_eq_true, Bool.or_eq_true]
      exact hquiet
    simp only [exec, execClearSequenceCompletion, hline, ne_eq, not_true_eq_false, if_false, hsignal, Bool.false_eq_true,
      State.freeLine_eq]
  case retries =>
    have hdue : due s.clock s.desk.retryAt = true := by rw [hretry]; exact hreached
    exact if_pos ⟨hline, hdue⟩
  case noRetry => exact if_neg fun h => hline h.1
  case streams =>
    have hdue : due s.clock st.streamAt = true := by rw [hstream]; exact hreached
    simp only [exec, execStreamTimerExpiry, hst, hdue, if_true]
    exact congrArg Host.Outcome.next (State.modifyStation_eq s n st _ hst)
  case noStream => simp only [exec, execStreamTimerExpiry, hst, hnone, due, Bool.false_eq_true, if_false]

/-! ### How transactions end and deliveries begin (R123, R129, R131 to R133, R138, R139) -/

/-- Which line is next does not rest on the line state nor on the transaction (R145). -/
theorem State.nextItem_line (s : State) (line : LineState) (n : Nat) (page : Page) :
    State.nextItem { s with desk := { s.desk with line := line } } n page = s.nextItem n page := by
  cases page <;> rfl

/-- With no line left END is sent (R129). -/
theorem State.sendNext_ends {s : State} {u : Transaction} {page : Page} (h : s.nextItem u.station page = none) :
    s.sendNext u page = s.withTransaction { u with output := .ending false, window := none } := by
  simp only [State.sendNext, h]

/-- The next line of a page is rendered and sent (R129). -/
theorem State.sendNext_line {s : State} {u : Transaction} {page : Page} {item : List LineField × LineSource × Page}
    (h : s.nextItem u.station page = some item) :
    s.sendNext u page = s.withTransaction { u with
      page := some item.2.2, nextLine := u.nextLine + 1, window := none
      output := .line (s.renderLine u.nextLine item.1 item.2.1) } := by
  obtain ⟨fields, source, page'⟩ := item
  simp only [State.sendNext, h]

/-- The third failed delivery in a row makes a station ABSENT (R132). -/
theorem Station.failDelivery_eq (st : Station) :
    st.failDelivery = { st with
      counters := { st.counters with failedDeliveries := min 65535 (st.counters.failedDeliveries + 1) }
      failedRun := min 3 (st.failedRun + 1)
      presence := if 2 ≤ st.failedRun then .absent else st.presence } := by
  have hthird : 3 ≤ st.failedRun + 1 ↔ 2 ≤ st.failedRun := by omega
  simp only [Station.failDelivery, hthird]
  rfl

/-- Settles O51: each event by the output, the line state or the kind that its rule tests. -/
theorem transactionsBeginAndEnd : Obligations.TransactionsBeginAndEnd := by
  unfold Obligations.TransactionsBeginAndEnd
  intro n causing at_ u page st s hu hst counted ready suspended
  have ended : ∀ f : Station → Station,
      (s.modifyStation u.station f).freeLine = (s.withStation u.station (f st)).lineFreed := fun f => by
    rw [State.modifyStation_eq s u.station st f hst, State.freeLine_eq]
  refine ⟨fun houtput hpage => ?suspends, fun houtput hn => ?receipt, fun houtput hn => ?wrongReceipt, fun houtput => ?strayReceipt,
    fun hline hpage hnot => ?notReady, fun hline hpage hn hbusy => ?ready, fun hwindow hreached => ?window⟩
  case suspends =>
    simp only [exec, execSuspendCompletion, hu, houtput, hpage, State.freeLine_eq]
    rfl
  case receipt => simp only [exec, execReceipt, hu, houtput, if_true, if_pos hn, State.freeLine_eq]
  case wrongReceipt =>
    simp only [exec, execReceipt, hu, houtput, if_true, if_neg hn, ended]
    rfl
  case strayReceipt => simp only [exec, execReceipt, hu, if_neg houtput, State.strayFrame_faults hu hst]; rfl
  case notReady =>
    have hwait : ¬ (n = u.station ∧ s.desk.busy = true) := by
      rintro ⟨hn, hbusy⟩
      exact hnot.elim (· hn) fun hfalse => Bool.false_ne_true (hfalse.symm.trans hbusy)
    simp only [exec, execReady, hu, if_pos hline, hpage, if_neg hwait]
  case ready =>
    subst hn
    have hexec : exec (.ready u.station) s = .next (s.readyTaken u page) := by
      simp only [exec, execReady, hu, if_pos hline, hpage, hbusy, and_self, if_true]
    have hready : s.modifyStation u.station (fun st => { st with failedRun := 0 }) = ready :=
      State.modifyStation_eq s u.station st _ hst
    refine ⟨fun hkind => ⟨_, hexec, ?_⟩, fun reply hkind => ?_⟩
    · rcases hkind with hkind | hkind
      · simp only [State.readyTaken, hkind, hready]; rfl
      · simp only [State.readyTaken, hkind, hready]; rfl
    · simp only [State.readyTaken, hkind, hready] at hexec
      have hsame := State.nextItem_line ready (if reply then .reply else .delivery) u.station page
      cases hnext : ready.nextItem u.station page with
      | none =>
        rw [State.sendNext_ends (hsame.trans hnext)] at hexec
        refine ⟨_, .ending false, page, hexec, ?_, fun _ => ⟨rfl, rfl⟩, fun item h => nomatch h⟩
        rw [if_pos rfl, ← hpage]
        rfl
      | some item =>
        rw [State.sendNext_line (hsame.trans hnext)] at hexec
        refine ⟨_, .line (ready.renderLine u.nextLine item.1 item.2.1), item.2.2, hexec, ?_, fun h => ?_, fun item' h => ?_⟩
        · rw [if_neg (Option.some_ne_none item)]
          rfl
        · cases h
        · cases h
          exact ⟨rfl, rfl⟩
  case window =>
    have hdue : due s.clock u.window = true := by rw [hwindow]; exact hreached
    refine ⟨fun hline => ?_, fun hline => ?_⟩
    · simp only [exec, execWindowExpiry, hu, hdue, if_true, if_neg hline, ended]
      rfl
    · simp only [exec, execWindowExpiry, hu, hdue, if_true, if_pos hline, ended, Station.failDelivery_eq]

end Sys2Proof.Machine
end



section
/-! PROOF. The arbiter's choice and the presence scan (R120 to R124, R131, R136, R139). -/

namespace Sys2Proof.Machine

/-! ### The arbiter (R124) -/

section
variable {s : State}

/-- With the line not FREE or DESK BUSY held the arbiter starts nothing (R124). -/
theorem exec_arbiterStart_waits (h : s.desk.line ≠ .free ∨ s.desk.busy = true) : exec .arbiterStart s = .next s :=
  if_pos (or_assoc.1 (.inl h))

/-- With nothing suspended the arbiter goes on to the alerts (R124). -/
theorem exec_arbiterStart_unsuspended (hfree : s.desk.line = .free) (hbusy : s.desk.busy = false) (hstuck : s.stuckDue = false)
    (hslot : s.desk.slot = none) : exec .arbiterStart s = .next s.alertOrLater := by
  simp [exec, execArbiterStart, hfree, hbusy, hstuck, hslot]

/-- A suspended page is resumed when that is due, and waits for its alert delivery otherwise (R124 item 1). -/
theorem exec_arbiterStart_suspended (hfree : s.desk.line = .free) (hbusy : s.desk.busy = false) (hstuck : s.stuckDue = false)
    {p : SuspendedPage} (hslot : s.desk.slot = some p) :
    exec .arbiterStart s =
      if s.desk.resumptionDue p = true then .next (s.startResumption p)
      else .next ({ s with desk := { s.desk with slot := some { p with started := true } } }.startAlert p.causing) := by
  have hgoes : ¬ (s.desk.line ≠ .free ∨ s.desk.busy = true ∨ s.stuckDue = true) := by simp [hfree, hbusy, hstuck]
  simp only [exec, execArbiterStart, if_neg hgoes, hslot]

/-- A suspended page is resumed when its alert delivery has started, or none is owed any more (R124 item 1). -/
theorem Desk.resumptionDue_true {d : Desk} {p : SuspendedPage}
    (h : p.started = true ∨ ∀ c, d.stations[p.causing]? = some c → ¬ c.alerting) : d.resumptionDue p = true := by
  unfold Desk.resumptionDue
  rcases h with hstarted | hnone
  · rw [hstarted, Bool.true_or]
  · cases hst : d.stations[p.causing]? with
    | none => rw [Bool.or_true]
    | some c =>
      have hquiet := hnone c hst
      simp only [Station.alerting, not_and_or, not_not] at hquiet
      simpa using Or.inr hquiet

/-- A suspended page waits for the alert delivery it was suspended for (R124 item 1). -/
theorem Desk.resumptionDue_false {d : Desk} {p : SuspendedPage} {st : Station} (hstarted : p.started = false)
    (hst : d.stations[p.causing]? = some st) (halerting : st.alerting) : d.resumptionDue p = false := by
  obtain ⟨hattached, halerts⟩ := halerting
  simp [Desk.resumptionDue, hstarted, hst, hattached, halerts]

/-- With no station alerting no alert delivery starts (R124 item 2). -/
theorem Desk.alertStation_none {d : Desk} (h : ∀ st ∈ d.stations, ¬ st.alerting) : d.alertStation = none :=
  firstInRound_none fun _ st hst =>
    eq_false_of_ne_true fun ht => h st (List.mem_of_getElem? hst) (st.alerting_iff.1 ht)

/-- With no station due no routine delivery starts (R124 item 4). -/
theorem Desk.routineStation_none {d : Desk} (h : ∀ st ∈ d.stations, ¬ st.isDue) : d.routineStation = none :=
  firstInRound_none fun _ st hst =>
    eq_false_of_ne_true fun ht => h st (List.mem_of_getElem? hst) (st.routineDue_iff.1 ht)

/-- With attention raised a claim round starts, unless a routine delivery is due and goes first (R124 items 3 and 4). -/
theorem State.claimOrRoutine_claims (hattn : s.desk.attn = true)
    (h : s.desk.alternation = false ∨ ∀ st ∈ s.desk.stations, ¬ st.isDue) : s.claimOrRoutine = s.startClaim := by
  unfold State.claimOrRoutine
  split
  · exact if_pos hattn
  · next n hn =>
    rcases h with halternation | hnone
    · exact if_pos ⟨hattn, halternation⟩
    · rw [Desk.routineStation_none hnone] at hn
      cases hn

/-- A routine delivery that is due starts when no claim round goes first (R124 items 3 and 4). -/
theorem State.claimOrRoutine_routine {n : Nat} (h : s.desk.attn = false ∨ s.desk.alternation = true)
    (hn : s.desk.routineStation = some n) : s.claimOrRoutine = s.startRoutine n := by
  have hnot : ¬ (s.desk.attn = true ∧ s.desk.alternation = false) := by
    rintro ⟨hattn, halternation⟩
    rcases h with h | h
    · exact Bool.false_ne_true (h.symm.trans hattn)
    · exact Bool.false_ne_true (halternation.symm.trans h)
  simp only [State.claimOrRoutine, hn, if_neg hnot]

end

/-- Settles O46: the slot, the alerts, attention and the due deliveries in R124's order. -/
theorem arbiterTakesFirstItem : Obligations.ArbiterTakesFirstItem := by
  unfold Obligations.ArbiterTakesFirstItem
  intro n p st s d begun noAlert noDue claiming
  refine ⟨exec_arbiterStart_waits, fun hfree hbusy hstuck _ => ?_⟩
  have quiet : s.desk.slot = none → noAlert → exec .arbiterStart s = .next s.claimOrRoutine := fun hslot hnone => by
    have hquiet : s.desk.alertStation = none := Desk.alertStation_none hnone
    rw [exec_arbiterStart_unsuspended hfree hbusy hstuck hslot, State.alertOrLater, hquiet]
  refine ⟨fun hslot hdue => ?resumes, fun hslot hstarted hst halerting => ?delivers, fun hslot hround => ?alerts,
    fun hslot hnone hattn h => ?claims, fun hslot hnone h hround hst => ?routine, fun hslot hnone hattn hidle => ?idle⟩
  case resumes =>
    exact (exec_arbiterStart_suspended hfree hbusy hstuck hslot).trans (if_pos (Desk.resumptionDue_true hdue))
  case delivers =>
    have hwaits : ¬ s.desk.resumptionDue p = true := Bool.eq_false_iff.1 (Desk.resumptionDue_false hstarted hst halerting)
    exact (exec_arbiterStart_suspended hfree hbusy hstuck hslot).trans (if_neg hwaits)
  case alerts =>
    have hfirst : s.desk.alertStation = some n := firstInRound_some (fun _ st => st.alerting_iff) hround
    have hnext : s.alertOrLater = s.startAlert n := by rw [State.alertOrLater, hfirst]
    exact (exec_arbiterStart_unsuspended hfree hbusy hstuck hslot).trans (congrArg _ hnext)
  case claims => exact (quiet hslot hnone).trans (congrArg _ (State.claimOrRoutine_claims hattn h))
  case routine =>
    have hfirst : s.desk.routineStation = some n := firstInRound_some (fun _ st => st.routineDue_iff) hround
    have hpage : routinePage st.mode = if st.mode = .stream then .watch [] else .changes [] 0 := by cases st.mode <;> rfl
    have hnext : s.startRoutine n =
        State.reselect { s with desk := { s.desk with lastRoutine := n, alternation := false } } n .routineDelivery
          (if st.mode = .stream then .watch [] else .changes [] 0) 0 := by
      rw [← hpage, State.startRoutine, show s.desk.stations[n]? = some st from hst]
    exact (quiet hslot hnone).trans (congrArg _ ((State.claimOrRoutine_routine h hfirst).trans hnext))
  case idle =>
    have hrest : s.desk.routineStation = none := Desk.routineStation_none hidle
    have hunraised : ¬ s.desk.attn = true := Bool.eq_false_iff.1 hattn
    rw [quiet hslot hnone, State.claimOrRoutine, hrest]
    simp only [if_neg hunraised]

/-! ### The presence scan (R120 to R122) -/

/-- A station's input reads as at the previous scan (R120). -/
def State.confirms (s : State) (reading : BitVec 16) (n : Nat) (present : Bool) : Bool :=
  decide (reading.getLsbD n = present) && decide (s.desk.scanPrevious.getLsbD n = present)

/-- A station that a scan detaches (R120, R122). -/
def State.goesAt (s : State) (reading : BitVec 16) (n : Nat) : Bool :=
  match s.desk.stations[n]? with
  | none => false
  | some st => decide (st.presence ≠ .detached) && s.confirms reading n false

/-- A station record as a scan leaves it (R120 to R122). -/
def State.scannedStation (s : State) (reading : BitVec 16) (n : Nat) (st : Station) : Station :=
  if st.presence = .detached ∧ s.confirms reading n true = true then st.attached s.clock
  else if st.presence ≠ .detached ∧ s.confirms reading n false = true then st.detached
  else st

/-- The slot once the stations below a number are scanned (R122). -/
def slotBefore (gone : Nat → Bool) (k : Nat) : Option SuspendedPage → Option SuspendedPage
  | none => none
  | some p =>
    if p.station < k ∧ gone p.station = true then none
    else if p.causing < k ∧ gone p.causing = true then some { p with started := true }
    else some p

/-- The transaction is one of a station below a number that the scan detaches (R122). -/
def State.endsBefore (s : State) (reading : BitVec 16) (k : Nat) : Bool :=
  match s.desk.transaction with
  | none => false
  | some u => decide (u.station < k) && s.goesAt reading u.station

/-- The station records once the stations below a number are scanned (R120 to R122). -/
def State.scannedStations (s : State) (reading : BitVec 16) (k : Nat) : List Station :=
  s.desk.stations.mapIdx fun m st => if m < k then s.scannedStation reading m st else st

/-- The state once the stations below a number are scanned, in the terms of the state before the scan (R120 to R122). -/
def State.scannedBefore (s : State) (reading : BitVec 16) (k : Nat) : State :=
  let base := if s.endsBefore reading k then s.lineFreed else s
  { base with desk := { base.desk with
      stations := s.scannedStations reading k
      slot := slotBefore (s.goesAt reading) k s.desk.slot } }

/-- The next station's scan in the slot: a page of it discarded, one that it caused to wait due (R122). -/
theorem slotBefore_succ (gone : Nat → Bool) (k : Nat) (slot : Option SuspendedPage) :
    slotBefore gone (k + 1) slot =
      if gone k = true then slotAfterDetach k (slotBefore gone k slot) else slotBefore gone k slot := by
  cases slot with
  | none => simp [slotBefore, slotAfterDetach]
  | some p =>
    have hbelow : ∀ m, (m < k + 1 ∧ gone m = true) ↔ (m < k ∧ gone m = true) ∨ (m = k ∧ gone k = true) := fun m => by
      constructor
      · rintro ⟨hm, hgone⟩
        rcases Nat.lt_succ_iff_lt_or_eq.1 hm with hm | rfl
        · exact .inl ⟨hm, hgone⟩
        · exact .inr ⟨rfl, hgone⟩
      · rintro (⟨hm, hgone⟩ | ⟨rfl, hgone⟩)
        · exact ⟨by omega, hgone⟩
        · exact ⟨by omega, hgone⟩
    simp only [slotBefore, hbelow]
    by_cases hk : gone k = true
    · simp only [hk, and_true, if_true]
      by_cases h1 : p.station < k ∧ gone p.station = true
      · simp [h1, slotAfterDetach]
      · by_cases h2 : p.causing < k ∧ gone p.causing = true
        · by_cases h3 : p.station = k <;> by_cases h4 : p.causing = k <;> simp [h1, h2, h3, h4, slotAfterDetach]
        · by_cases h3 : p.station = k <;> by_cases h4 : p.causing = k <;> simp [h1, h2, h3, h4, slotAfterDetach]
    · simp [hk]

/-- A station that is not scanned yet stands as before the scan. -/
theorem State.scannedStations_get (s : State) (reading : BitVec 16) (k m : Nat) :
    (s.scannedStations reading k)[m]? =
      (s.desk.stations[m]?).map fun st => if m < k then s.scannedStation reading m st else st := by
  rw [State.scannedStations, List.getElem?_mapIdx]

/-- The next station's scan in its record, and in no other's. -/
theorem State.scannedStations_succ {s : State} {reading : BitVec 16} {k : Nat} {f : Station → Station}
    (h : ∀ st, s.desk.stations[k]? = some st → s.scannedStation reading k st = f st) :
    s.scannedStations reading (k + 1) = (s.scannedStations reading k).modify k f := by
  refine List.ext_getElem? fun m => ?_
  rw [List.getElem?_modify, State.scannedStations_get, State.scannedStations_get]
  cases hst : s.desk.stations[m]? with
  | none => simp
  | some st =>
    rcases Nat.lt_trichotomy m k with hlt | rfl | hgt
    · simp [hlt, show m < k + 1 by omega, show ¬ k = m by omega]
    · simp [h st hst]
    · simp [show ¬ m < k by omega, show ¬ m < k + 1 by omega, show ¬ k = m by omega]

/-- Freeing the line looks at no station and no slot (R123, R136). -/
theorem State.lineFreed_tables (s : State) (stations : List Station) (slot : Option SuspendedPage) :
    State.lineFreed { s with desk := { s.desk with stations := stations, slot := slot } } =
      { s.lineFreed with desk := { s.lineFreed.desk with stations := stations, slot := slot } } := by
  unfold State.lineFreed
  simp only
  split
  · rfl
  · split <;> rfl

/-- What freeing the line keeps (R123, R136). -/
theorem State.lineFreed_keeps (s : State) :
    s.lineFreed.clock = s.clock ∧ s.lineFreed.desk.scanPrevious = s.desk.scanPrevious ∧
      s.lineFreed.desk.transaction = none ∧ s.lineFreed.desk.answered = [] ∧
      s.lineFreed = { s with desk := { s.desk with
        line := s.lineFreed.desk.line, transaction := none, answered := []
        stuckAt := s.lineFreed.desk.stuckAt, retryAt := s.lineFreed.desk.retryAt } } := by
  unfold State.lineFreed
  simp only
  split
  · exact ⟨rfl, rfl, rfl, rfl, rfl⟩
  · split <;> exact ⟨rfl, rfl, rfl, rfl, rfl⟩

/-- An input that confirms reads the same at both scans (R120). -/
theorem State.confirms_iff (s : State) (reading : BitVec 16) (n : Nat) (present : Bool) :
    s.confirms reading n present = true ↔ reading.getLsbD n = present ∧ s.desk.scanPrevious.getLsbD n = present := by
  simp [State.confirms]

/-- A scan of a station by what it confirms (R120). -/
theorem State.scanStation_eq {t : State} {reading : BitVec 16} {n : Nat} {st : Station} (hst : t.desk.stations[n]? = some st) :
    State.scanStation reading t n =
      if st.presence = .detached ∧ t.confirms reading n true = true then t.modifyStation n (Station.attached t.clock)
      else if st.presence ≠ .detached ∧ t.confirms reading n false = true then t.detach n
      else t := by
  simp only [State.scanStation, hst]
  by_cases hsame : reading.getLsbD n = t.desk.scanPrevious.getLsbD n
  · have hnow : ∀ present, t.confirms reading n present = true ↔ reading.getLsbD n = present := fun present => by
      rw [State.confirms_iff, ← hsame, and_self]
    simp only [if_pos hsame, hnow, and_comm]
  · have hnever : ∀ present, ¬ t.confirms reading n present = true := fun present h => by
      obtain ⟨hnow, hbefore⟩ := (t.confirms_iff reading n present).1 h
      exact hsame (hnow.trans hbefore.symm)
    rw [if_neg hsame, if_neg fun h => hnever true h.2, if_neg fun h => hnever false h.2]

/-- A detach of the station in transaction frees the line before its record is set (R122). -/
theorem State.detach_ends {t : State} {u : Transaction} {n : Nat} (hu : t.desk.transaction = some u) (hn : u.station = n) :
    t.detach n =
      (State.lineFreed { t with desk := { t.desk with slot := slotAfterDetach n t.desk.slot } }).modifyStation n
        Station.detached := by
  simp only [State.detach, hu, if_pos hn, State.freeLine_eq]

/-- A detach of a station that is not in transaction leaves the line (R122). -/
theorem State.detach_rests {t : State} {n : Nat} (h : ∀ u, t.desk.transaction = some u → u.station ≠ n) :
    t.detach n =
      State.modifyStation { t with desk := { t.desk with slot := slotAfterDetach n t.desk.slot } } n Station.detached := by
  unfold State.detach
  simp only
  split
  · rfl
  · next u hu => rw [if_neg (h u hu)]

section
variable {s : State} {reading : BitVec 16} {k : Nat}

/-- What the scan of the stations below a number leaves for the next: its record, the clock and the previous reading. -/
theorem State.scannedBefore_reads (s : State) (reading : BitVec 16) (k : Nat) :
    (s.scannedBefore reading k).clock = s.clock ∧
      (s.scannedBefore reading k).desk.scanPrevious = s.desk.scanPrevious ∧
      (s.scannedBefore reading k).desk.stations[k]? = s.desk.stations[k]? := by
  have hstation : (s.scannedStations reading k)[k]? = s.desk.stations[k]? := by
    rw [State.scannedStations_get]
    simp
  obtain ⟨hclock, hprevious, _⟩ := s.lineFreed_keeps
  unfold State.scannedBefore
  cases s.endsBefore reading k
  · exact ⟨rfl, rfl, hstation⟩
  · exact ⟨hclock, hprevious, hstation⟩

/-- A station that is not detached leaves line and slot as they were (R120). -/
theorem State.scannedBefore_stays (h : s.goesAt reading k = false) :
    s.scannedBefore reading (k + 1) =
      { s.scannedBefore reading k with desk := { (s.scannedBefore reading k).desk with
        stations := s.scannedStations reading (k + 1) } } := by
  have hends : s.endsBefore reading (k + 1) = s.endsBefore reading k := by
    unfold State.endsBefore
    cases s.desk.transaction with
    | none => rfl
    | some u =>
      by_cases hu : u.station = k
      · simp [hu, h]
      · simp [show u.station < k + 1 ↔ u.station < k by omega]
  have hslot : slotBefore (s.goesAt reading) (k + 1) s.desk.slot = slotBefore (s.goesAt reading) k s.desk.slot := by
    rw [slotBefore_succ, h]
    rfl
  simp only [State.scannedBefore, hends, hslot]

/-- A station that is detached has its record set, its transaction ended, and the slot dealt with (R122). -/
theorem State.scannedBefore_goes (h : s.goesAt reading k = true)
    (hrecord : s.scannedStations reading (k + 1) = (s.scannedStations reading k).modify k Station.detached) :
    s.scannedBefore reading (k + 1) = (s.scannedBefore reading k).detach k := by
  have hslot : slotBefore (s.goesAt reading) (k + 1) s.desk.slot =
      slotAfterDetach k (slotBefore (s.goesAt reading) k s.desk.slot) := by
    rw [slotBefore_succ, h]
    rfl
  by_cases hended : s.endsBefore reading k = true
  · have hstill : s.endsBefore reading (k + 1) = true := by
      unfold State.endsBefore at hended ⊢
      split at hended
      · cases hended
      · rw [Bool.and_eq_true, decide_eq_true_eq] at hended ⊢
        exact ⟨by omega, hended.2⟩
    have hover : (s.scannedBefore reading k).desk.transaction = none := by
      obtain ⟨_, _, hnone, _⟩ := s.lineFreed_keeps
      simp only [State.scannedBefore, hended, if_true, hnone]
    rw [State.detach_rests fun u hu => by rw [hover] at hu; cases hu]
    simp only [State.scannedBefore, hended, hstill, if_true, hslot, hrecord]
    rfl
  · rw [Bool.not_eq_true] at hended
    have hbase : s.scannedBefore reading k = { s with desk := { s.desk with
        stations := s.scannedStations reading k, slot := slotBefore (s.goesAt reading) k s.desk.slot } } := by
      simp only [State.scannedBefore, hended, Bool.false_eq_true, if_false]
    by_cases hnow : s.endsBefore reading (k + 1) = true
    · obtain ⟨u, hu, hstation⟩ : ∃ u, s.desk.transaction = some u ∧ u.station = k := by
        unfold State.endsBefore at hended hnow
        split at hnow
        · cases hnow
        · next u hu =>
          rw [Bool.and_eq_true, decide_eq_true_eq] at hnow
          refine ⟨u, hu, ?_⟩
          simp only [hu, hnow.2, Bool.and_true, decide_eq_false_iff_not] at hended
          omega
      have htransaction : (s.scannedBefore reading k).desk.transaction = some u := by rw [hbase]; exact hu
      have hfreed := State.lineFreed_tables s (s.scannedStations reading k)
        (slotAfterDetach k (slotBefore (s.goesAt reading) k s.desk.slot))
      rw [State.detach_ends htransaction hstation, hbase]
      refine Eq.trans ?_ (congrArg (fun x => State.modifyStation x k Station.detached) hfreed).symm
      rw [State.scannedBefore, if_pos hnow, hslot, hrecord]
      rfl
    · have hother : ∀ u, (s.scannedBefore reading k).desk.transaction = some u → u.station ≠ k := fun u hu hstation => by
        rw [hbase] at hu
        exact hnow (by simp [State.endsBefore, show s.desk.transaction = some u from hu, hstation, h])
      rw [State.detach_rests hother, hbase, State.scannedBefore, if_neg hnow, hslot, hrecord]
      rfl

/-- Scanning one more station (R120 to R122). -/
theorem State.scanStation_scannedBefore (s : State) (reading : BitVec 16) (k : Nat) :
    State.scanStation reading (s.scannedBefore reading k) k = s.scannedBefore reading (k + 1) := by
  obtain ⟨hclock, hprevious, hstation⟩ := s.scannedBefore_reads reading k
  have hconfirms : ∀ present, (s.scannedBefore reading k).confirms reading k present = s.confirms reading k present :=
    fun present => by rw [State.confirms, hprevious, State.confirms]
  cases hst : s.desk.stations[k]? with
  | none =>
    have hgone : s.goesAt reading k = false := by rw [State.goesAt, hst]
    have hsame : s.scannedStations reading (k + 1) = s.scannedStations reading k := by
      rw [State.scannedStations_succ (f := id) (fun st h => by rw [hst] at h; cases h), List.modify_id]
    rw [State.scanStation, hstation, hst, State.scannedBefore_stays hgone, hsame]
    rfl
  | some st =>
    have hgone : s.goesAt reading k = (decide (st.presence ≠ .detached) && s.confirms reading k false) := by
      rw [State.goesAt, hst]
    rw [State.scanStation_eq (hstation.trans hst), hclock, hconfirms, hconfirms]
    by_cases hattach : st.presence = .detached ∧ s.confirms reading k true = true
    · have hrecord : s.scannedStations reading (k + 1) =
          (s.scannedStations reading k).modify k (Station.attached s.clock) :=
        State.scannedStations_succ fun x hx => by
          rw [hst] at hx
          cases hx
          exact if_pos hattach
      rw [if_pos hattach, State.scannedBefore_stays (by simp [hgone, hattach.1]), hrecord]
      rfl
    · rw [if_neg hattach]
      by_cases hdetach : st.presence ≠ .detached ∧ s.confirms reading k false = true
      · have hrecord : s.scannedStations reading (k + 1) = (s.scannedStations reading k).modify k Station.detached :=
          State.scannedStations_succ fun x hx => by
            rw [hst] at hx
            cases hx
            rw [State.scannedStation, if_neg hattach, if_pos hdetach]
        rw [if_pos hdetach, State.scannedBefore_goes (by simpa [hgone] using hdetach) hrecord]
      · have hrecord : s.scannedStations reading (k + 1) = s.scannedStations reading k := by
          rw [State.scannedStations_succ (f := id) fun x hx => ?_, List.modify_id]
          rw [hst] at hx
          cases hx
          rw [State.scannedStation, if_neg hattach, if_neg hdetach]
          rfl
        have hstays : s.goesAt reading k = false := by
          rw [hgone]
          exact eq_false_of_ne_true fun h => hdetach (by simpa using h)
        rw [if_neg hdetach, State.scannedBefore_stays hstays, hrecord]
        rfl

/-- The scan of the first stations, one after another (R120). -/
theorem foldl_scanStation (s : State) (reading : BitVec 16) (k : Nat) :
    (List.range k).foldl (State.scanStation reading) s = s.scannedBefore reading k := by
  induction k with
  | zero =>
    have hends : s.endsBefore reading 0 = false := by
      unfold State.endsBefore
      split
      · rfl
      · simp
    have hslot : slotBefore (s.goesAt reading) 0 s.desk.slot = s.desk.slot := by
      cases s.desk.slot with
      | none => rfl
      | some p => simp [slotBefore]
    have hstations : s.scannedStations reading 0 = s.desk.stations := by
      refine List.ext_getElem? fun m => ?_
      rw [State.scannedStations_get]
      simp
    simp only [List.range_zero, List.foldl_nil, State.scannedBefore, hends, hslot, hstations, Bool.false_eq_true, if_false]
  | succ k ih => rw [List.range_succ, List.foldl_append, ih, List.foldl_cons, List.foldl_nil, State.scanStation_scannedBefore]

end

/-- A station that a scan detaches, in the manual's words (R122). -/
theorem State.goesAt_iff (s : State) (reading : BitVec 16) (n : Nat) :
    s.goesAt reading n = true ↔ ∃ st, s.desk.stations[n]? = some st ∧ st.presence ≠ .detached ∧
      reading.getLsbD n = false ∧ s.desk.scanPrevious.getLsbD n = false := by
  unfold State.goesAt
  cases s.desk.stations[n]? with
  | none => simp
  | some st => simp [State.confirms_iff]

/-- Settles O45: the scan of the sixteen stations by `foldl_scanStation`, then field by field. -/
theorem presenceScanConfirmsChanges : Obligations.PresenceScanConfirmsChanges := by
  unfold Obligations.PresenceScanConfirmsChanges
  intro reading s hreached h16 confirmed gone
  have gone_iff : ∀ n, s.goesAt reading n = true ↔ gone n := fun n => s.goesAt_iff reading n
  have below : ∀ n st, s.desk.stations[n]? = some st → n < 16 := fun n st hst =>
    h16 ▸ (List.getElem?_eq_some_iff.1 hst).1
  have gone_below : ∀ n, gone n → n < 16 := fun n ⟨st, hst, _⟩ => below n st hst
  have hexec : exec (.presenceScan reading) s = .next
      { s.scannedBefore reading 16 with desk := { (s.scannedBefore reading 16).desk with
        scanPrevious := reading, scanAt := s.desk.scanAt + 100#32 } } := by
    simp only [exec, execPresenceScan, hreached, if_true, foldl_scanStation]
    rfl
  obtain ⟨_, _, hnone, hempty, hfreed⟩ := s.lineFreed_keeps
  have ends : (∃ u, s.desk.transaction = some u ∧ gone u.station) → s.endsBefore reading 16 = true := by
    rintro ⟨u, hu, hgone⟩
    simp [State.endsBefore, hu, (gone_iff _).2 hgone, gone_below _ hgone]
  have lasts : (∀ u, s.desk.transaction = some u → ¬ gone u.station) → s.endsBefore reading 16 = false := fun h => by
    cases hu : s.desk.transaction with
    | none => rw [State.endsBefore, hu]
    | some u =>
      have hstays : s.goesAt reading u.station = false := eq_false_of_ne_true fun hg => h u hu ((gone_iff _).1 hg)
      simp [State.endsBefore, hu, hstays]
  refine ⟨_, hexec, ?frame, fun n st hst => ?station, fun u hu hgone => ?ended, fun h => ?kept, fun p hp => ?slot, fun h => ?noSlot⟩
  case frame =>
    unfold State.scannedBefore
    cases s.endsBefore reading 16
    · rfl
    · simp only [if_true]
      rw [hfreed]
  case station =>
    have hread : (s.scannedStations reading 16)[n]? = some (s.scannedStation reading n st) := by
      rw [State.scannedStations_get, hst, Option.map_some, if_pos (below n st hst)]
    have hscanned : (s.scannedBefore reading 16).desk.stations = s.scannedStations reading 16 := rfl
    refine ⟨fun hd hc => ?_, fun hd hc => ?_, fun hnot hnot' => ?_⟩
    · exact hread.trans (congrArg some (if_pos ⟨hd, (s.confirms_iff reading n true).2 hc⟩))
    · refine hread.trans (congrArg some ?_)
      rw [State.scannedStation, if_neg fun h => hd h.1, if_pos ⟨hd, (s.confirms_iff reading n false).2 hc⟩]
      rfl
    · refine hread.trans (congrArg some ?_)
      rw [State.scannedStation, if_neg fun h => hnot ⟨h.1, (s.confirms_iff reading n true).1 h.2⟩,
        if_neg fun h => hnot' ⟨h.1, (s.confirms_iff reading n false).1 h.2⟩]
  case ended =>
    have hbase : (if s.endsBefore reading 16 then s.lineFreed else s) = s.lineFreed := if_pos (ends ⟨u, hu, hgone⟩)
    simp only [State.scannedBefore, hbase]
    exact ⟨hnone, trivial, hempty, trivial, trivial⟩
  case kept =>
    have hbase : (if s.endsBefore reading 16 then s.lineFreed else s) = s := if_neg (by simp [lasts h])
    simp only [State.scannedBefore, hbase, and_self]
  case slot =>
    have hslot : (s.scannedBefore reading 16).desk.slot = slotBefore (s.goesAt reading) 16 (some p) := by
      rw [← hp]
      rfl
    refine ⟨fun hgone => ?_, fun hstays hcausing => ?_, fun hstays hrests => ?_⟩
    · exact hslot.trans (if_pos ⟨gone_below _ hgone, (gone_iff _).2 hgone⟩)
    · refine hslot.trans ?_
      rw [slotBefore, if_neg fun h => hstays ((gone_iff _).1 h.2), if_pos ⟨gone_below _ hcausing, (gone_iff _).2 hcausing⟩]
    · refine hslot.trans ?_
      rw [slotBefore, if_neg fun h => hstays ((gone_iff _).1 h.2), if_neg fun h => hrests ((gone_iff _).1 h.2)]
  case noSlot =>
    have hslot : (s.scannedBefore reading 16).desk.slot = slotBefore (s.goesAt reading) 16 none := by
      rw [← h]
      rfl
    exact hslot

end Sys2Proof.Machine
end



section
/-! PROOF. Desk requests: how each is refused, held for a lookup, or served with its page (R128, R144, R146 to R152). -/

namespace Sys2Proof.Machine

/-! ### How a request is taken (R128, R144) -/

section
variable {s : State} {u : Transaction}

/-- A request that is awaited is served (R128). -/
theorem State.takeRequest_awaited (h : s.awaitsRequest u) (serve : Transaction → State) : s.takeRequest serve = serve u := by
  obtain ⟨hu, hline, hheld⟩ := h
  have hawaited : requestAwaited s u = true := by simp [requestAwaited, hline, hheld]
  simp only [State.takeRequest, hu, hawaited, if_true]

/-- While HELD every request is NOT READY (R144). -/
theorem State.serveTested_held (h : s.manager.state = .held) (kind : Option RequestKind) (sound : Bool)
    (serve : Transaction → State) :
    s.serveTested kind sound u serve = s.replyPage u (.status kind .notReady .nothing none) := if_pos h

/-- A request whose fields are no request is BAD REQUEST (R144). -/
theorem State.serveTested_bad (h : s.manager.state = .running) (kind : Option RequestKind) (serve : Transaction → State) :
    s.serveTested kind false u serve = s.replyPage u (.status kind .badRequest .nothing none) := by
  simp [State.serveTested, h, State.replyWith_eq]

/-- A sound request of a RUNNING unit is served by its kind (R144). -/
theorem State.serveTested_sound (h : s.manager.state = .running) (kind : Option RequestKind) (serve : Transaction → State) :
    s.serveTested kind true u serve = serve u := by
  simp [State.serveTested, h]

/-- A request whose echo or check is wrong is counted and answered with a CHECK ERROR page (R128). -/
theorem State.checkErrorFrame_eq {st : Station} (h : s.awaitsRequest u) (hst : s.desk.stations[u.station]? = some st) :
    s.checkErrorFrame =
      (s.withStation u.station { st with counters := { st.counters with
        checkErrors := min 65535 (st.counters.checkErrors + 1) } }).replyPage u (.status none .checkError .nothing none) := by
  rw [State.checkErrorFrame, State.takeRequest_awaited h, State.modifyStation_eq s u.station st _ hst]
  rfl

/-- While lookups are stopped a request is held in REQUEST with no window (R128). -/
theorem State.lookupRequest_waits (h : s.lookupsStopped = true) (request : LookupRequest) :
    s.lookupRequest u request = s.withTransaction { u with held := some request, window := none } := if_pos h

/-- With lookups not stopped a request is served at once (R128). -/
theorem State.lookupRequest_served (h : s.lookupsStopped = false) (request : LookupRequest) :
    s.lookupRequest u request = s.serveLookup u request := if_neg (by simp [h])

/-- Lookups are stopped while an operation is WORKING and during a walk (R3). -/
theorem State.lookupsStopped_iff (s : State) :
    s.lookupsStopped = true ↔ s.directory.isWorking = true ∨ s.store.walk ≠ none := by
  simp [State.lookupsStopped, Option.isSome_iff_ne_none]

/-- A QUOTE or RECENT request of a code not found is answered UNKNOWN SYMBOL (R146, R147). -/
theorem State.serveLookup_page_unknown {code : Code} (h : lookupCode s.directory.entries code = none) :
    s.serveLookup u (.quote code) = s.replyPage u (.status (some .quote) .unknownSymbol .nothing none) ∧
      s.serveLookup u (.recent code) = s.replyPage u (.status (some .recent) .unknownSymbol .nothing none) := by
  simp only [State.serveLookup, h, State.unknownSymbol, State.replyWith_eq, and_self]

/-- A QUOTE or RECENT request of a code found is answered with the record's page (R146, R147). -/
theorem State.serveLookup_page_found {code : Code} {r : Nat} (h : lookupCode s.directory.entries code = some r) :
    s.serveLookup u (.quote code) = s.replyPage u (.quote r []) ∧
      s.serveLookup u (.recent code) = s.replyPage u (.recent r []) := by
  simp only [State.serveLookup, h, State.replyWith_eq, and_self]

end

/-- The three modes of a SET MODE (R152). -/
theorem modeOf_of_le {mode : Nat} (h : mode ≤ 2) :
    ∃ m, modeOf mode = some m ∧ (mode = 0 → m = .event) ∧ (mode = 1 → m = .stream) ∧ (mode = 2 → m = .quiet) := by
  interval_cases mode <;> exact ⟨_, rfl, by decide, by decide, by decide⟩

/-- A mode above 2 is none (R152). -/
theorem modeOf_of_gt {mode : Nat} (h : 2 < mode) : modeOf mode = none := by
  obtain ⟨k, rfl⟩ := Nat.exists_eq_add_of_le' h
  rfl

/-- Settles O48: each request by R144's tests, then by its kind. -/
theorem requestsAreServed : Obligations.RequestsAreServed := by
  unfold Obligations.RequestsAreServed
  intro code r mode interval window st u s hawaits hst h16 refused mistaken checked within waiting served
  have taken : ∀ serve, s.takeRequest serve = serve u := State.takeRequest_awaited hawaits
  have held_eq : ∀ request, served request = s.serveLookup u request := fun request =>
    State.serveLookup_held s u (some request) window request
  have hcheck : s.checkErrorFrame = mistaken.replyPage u (.status none .checkError .nothing none) :=
    State.checkErrorFrame_eq hawaits hst
  have quote : exec (.quoteRequest code) s =
      .next (s.serveTested (some .quote) true u fun t => s.lookupRequest t (.quote code)) := congrArg _ (taken _)
  have recent : exec (.recent code) s =
      .next (s.serveTested (some .recent) true u fun t => s.lookupRequest t (.recent code)) := congrArg _ (taken _)
  have watch : exec .watchPage s = .next (s.serveTested (some .watchPage) true u fun t => s.replyWith t (.watch [])) :=
    congrArg _ (taken _)
  have setMode : exec (.setMode mode interval) s = .next
      (s.serveTested (some .setMode) (modeOf mode).isSome u fun t => s.setModeFor t (modeOf mode) interval) :=
    congrArg _ (taken _)
  have unknown : exec .unknownRequestKind s = .next (s.serveTested none false u fun _ => s) := congrArg _ (taken _)
  refine ⟨fun hnone => ?servedUnknown, fun hfound => ?servedFound, congrArg _ hcheck, ?incomplete, fun hheld => ?held,
    fun hrunning => ?running⟩
  case servedUnknown => simpa only [held_eq] using State.serveLookup_page_unknown hnone
  case servedFound => simpa only [held_eq] using State.serveLookup_page_found hfound
  case incomplete =>
    obtain ⟨_, hline, _⟩ := hawaits
    exact (if_pos hline).trans (congrArg _ hcheck)
  case held =>
    refine ⟨?_, ?_, ?_, ?_, ?_⟩
    · rw [quote, State.serveTested_held hheld]
    · rw [recent, State.serveTested_held hheld]
    · rw [watch, State.serveTested_held hheld]
    · rw [setMode, State.serveTested_held hheld]
    · rw [unknown, State.serveTested_held hheld]
  case running =>
    have quote' := quote.trans (congrArg _ (State.serveTested_sound hrunning _ _))
    have recent' := recent.trans (congrArg _ (State.serveTested_sound hrunning _ _))
    refine ⟨?_, ?_, fun hmode => ?_, fun hmode => ?_, fun hstopped => ?_, fun hidle hwalk => ?_⟩
    · rw [unknown, State.serveTested_bad hrunning]
    · rw [watch, State.serveTested_sound hrunning, State.replyWith_eq]
    · rw [setMode, modeOf_of_gt hmode]
      exact congrArg _ (State.serveTested_bad hrunning _ _)
    · obtain ⟨m, hm, hevent, hstream, hquiet⟩ := modeOf_of_le hmode
      refine ⟨m, st.setMode s.clock m interval, hevent, hstream, hquiet, st.setMode_stored s.clock m interval, ?_⟩
      rw [setMode, hm, Option.isSome_some, State.serveTested_sound hrunning, State.setModeFor,
        State.modifyStation_eq s u.station st _ hst]
      rfl
    · have hstop : s.lookupsStopped = true := s.lookupsStopped_iff.2 hstopped
      rw [quote', recent', State.lookupRequest_waits hstop, State.lookupRequest_waits hstop]
      exact ⟨rfl, rfl⟩
    · have hgo : s.lookupsStopped = false := by
        refine eq_false_of_ne_true fun hstop => ?_
        rcases s.lookupsStopped_iff.1 hstop with h | h
        · exact Bool.false_ne_true (hidle.symm.trans h)
        · exact h hwalk
      rw [quote', recent', State.lookupRequest_served hgo, State.lookupRequest_served hgo, held_eq, held_eq]
      refine ⟨fun hnone => ?_, fun hfound => ?_, rfl, rfl⟩
      · obtain ⟨hquote, hrecent⟩ := State.serveLookup_page_unknown (s := s) (u := u) hnone
        exact ⟨congrArg _ hquote, congrArg _ hrecent⟩
      · obtain ⟨hquote, hrecent⟩ := State.serveLookup_page_found (s := s) (u := u) hfound
        exact ⟨congrArg _ hquote, congrArg _ hrecent⟩

/-! ### WATCH ADD and WATCH DROP (R149, R150) -/

section
variable {s : State} {u : Transaction} {st : Station} {r : Nat} {q : QuoteRecord}

/-- A status page about an occupied record carries its code (R145). -/
theorem State.recordStatus_eq (hr : s.record? r = some q) (desk : Desk) (kind : RequestKind) (status : DeskStatus)
    (info : StatusInfo) :
    State.recordStatus { s with desk := desk } u kind status info r =
      State.replyPage { s with desk := desk } u (.status (some kind) status info (some q.code)) := by
  rw [State.recordStatus, show State.record? { s with desk := desk } r = some q from hr]
  rfl

/-- A station's list holds an entry for a record (R149). -/
theorem State.holdsEntry_iff (hst : s.desk.stations[u.station]? = some st) :
    s.holdsEntry u.station r = true ↔ ∃ e ∈ st.watch, e.record = r := by
  simp [State.holdsEntry, State.watchOf, hst]

/-- WATCH ADD of a record on the list updates its entry in place (R149). -/
theorem State.watchAdd_updates (hst : s.desk.stations[u.station]? = some st) (hr : s.record? r = some q)
    (h : ∃ e ∈ st.watch, e.record = r) (above below : Option Nat) (move : Bool) :
    s.watchAdd u r above below move =
      (s.withStation u.station { st with watch := st.watch.map fun e =>
        if e.record = r then { e with above := above, below := below, move := move } else e }).replyPage u
          (.status (some .watchAdd) .done .updated (some q.code)) := by
  rw [State.watchAdd, if_pos ((State.holdsEntry_iff hst).2 h), State.modifyStation_eq s u.station st _ hst]
  exact State.recordStatus_eq hr _ _ _ _

/-- WATCH ADD of a record not on a list with room adds an entry at the end (R149). -/
theorem State.watchAdd_adds (hst : s.desk.stations[u.station]? = some st) (hr : s.record? r = some q)
    (h : ∀ e ∈ st.watch, e.record ≠ r) (hroom : st.watch.length < 12) (above below : Option Nat) (move : Bool) :
    s.watchAdd u r above below move =
      (s.withStation u.station { st with watch := st.watch ++ [⟨r, above, below, move, false⟩] }).replyPage u
        (.status (some .watchAdd) .done .added (some q.code)) := by
  have hnot : ¬ s.holdsEntry u.station r = true := fun hh => by
    obtain ⟨e, he, her⟩ := (State.holdsEntry_iff hst).1 hh
    exact h e he her
  have hshort : ¬ 12 ≤ (s.watchOf u.station).length := by
    rw [State.watchOf, hst]
    exact Nat.not_le.2 hroom
  rw [State.watchAdd, if_neg hnot, if_neg hshort, State.modifyStation_eq s u.station st _ hst]
  exact State.recordStatus_eq hr _ _ _ _

/-- WATCH ADD of a record not on a full list is LIST FULL (R149). -/
theorem State.watchAdd_full (hst : s.desk.stations[u.station]? = some st) (hr : s.record? r = some q)
    (h : ∀ e ∈ st.watch, e.record ≠ r) (hfull : 12 ≤ st.watch.length) (above below : Option Nat) (move : Bool) :
    s.watchAdd u r above below move =
      s.replyPage u (.status (some .watchAdd) .listFull .nothing (some q.code)) := by
  have hnot : ¬ s.holdsEntry u.station r = true := fun hh => by
    obtain ⟨e, he, her⟩ := (State.holdsEntry_iff hst).1 hh
    exact h e he her
  have hlong : 12 ≤ (s.watchOf u.station).length := by
    rw [State.watchOf, hst]
    exact hfull
  rw [State.watchAdd, if_neg hnot, if_pos hlong]
  exact State.recordStatus_eq hr s.desk _ _ _

/-- WATCH DROP of a record not on the list is NOT ON LIST (R150). -/
theorem State.watchDrop_missing (hst : s.desk.stations[u.station]? = some st) (hr : s.record? r = some q)
    (h : ∀ e ∈ st.watch, e.record ≠ r) :
    s.watchDrop u r = s.replyPage u (.status (some .watchDrop) .notOnList .nothing (some q.code)) := by
  have hnot : ¬ s.holdsEntry u.station r = true := fun hh => by
    obtain ⟨e, he, her⟩ := (State.holdsEntry_iff hst).1 hh
    exact h e he her
  rw [State.watchDrop, if_neg hnot]
  exact State.recordStatus_eq hr s.desk _ _ _

/-- WATCH DROP of a record on the list: the entry leaves with its mark, its alert and its lines (R150). -/
theorem State.watchDrop_drops (hst : s.desk.stations[u.station]? = some st) (hr : s.record? r = some q)
    (h : ∃ e ∈ st.watch, e.record = r) :
    s.watchDrop u r =
      State.replyPage { s with desk :=
          { s.desk.mapPages (fun m => decide (m = u.station)) (Page.withoutEntries fun x => decide (x = r)) with
            stations := s.desk.stations.set u.station { st with
              watch := st.watch.filter fun e => e.record ≠ r
              alerts := st.alerts.filter fun a => a.record ≠ r } } }
        u (.status (some .watchDrop) .done .nothing (some q.code)) := by
  have hdropped : s.desk.dropWatch u.station r =
      { s.desk.mapPages (fun m => decide (m = u.station)) (Page.withoutEntries fun x => decide (x = r)) with
        stations := s.desk.stations.set u.station { st with
          watch := st.watch.filter fun e => e.record ≠ r
          alerts := st.alerts.filter fun a => a.record ≠ r } } := by
    rw [Desk.dropWatch, Desk.modifyStation_eq _ hst]
    simp only [Station.dropEntry, bne_eq_decide_ne]
    rfl
  rw [State.watchDrop, if_pos ((State.holdsEntry_iff hst).2 h), hdropped]
  exact State.recordStatus_eq hr _ _ _ _

/-- WATCH ADD and WATCH DROP of a code not found are answered UNKNOWN SYMBOL (R149, R150). -/
theorem State.serveLookup_watch_unknown {code : Code} (h : lookupCode s.directory.entries code = none)
    (above below : Option Nat) (move : Bool) :
    s.serveLookup u (.watchAdd code above below move) =
        s.replyPage u (.status (some .watchAdd) .unknownSymbol .nothing none) ∧
      s.serveLookup u (.watchDrop code) = s.replyPage u (.status (some .watchDrop) .unknownSymbol .nothing none) := by
  simp only [State.serveLookup, h, State.unknownSymbol, State.replyWith_eq, and_self]

/-- WATCH ADD and WATCH DROP of a code found edit the station's list (R149, R150). -/
theorem State.serveLookup_watch_found {code : Code} (h : lookupCode s.directory.entries code = some r)
    (above below : Option Nat) (move : Bool) :
    s.serveLookup u (.watchAdd code above below move) = s.watchAdd u r above below move ∧
      s.serveLookup u (.watchDrop code) = s.watchDrop u r := by
  simp only [State.serveLookup, h, and_self]

end

/-- Settles O49: R144's tests, then the list by whether it holds the record and has room. -/
theorem watchRequestsEditList : Obligations.WatchRequestsEditList := by
  unfold Obligations.WatchRequestsEditList
  intro code above below move r q window st u s hawaits hst add refused paged within waits served priced stopped
  have taken : ∀ serve, s.takeRequest serve = serve u := State.takeRequest_awaited hawaits
  have held_eq : ∀ request, served request = s.serveLookup u request := fun request =>
    State.serveLookup_held s u (some request) window request
  have hadd : exec add s = .next (s.serveTested (some .watchAdd) (isPriceOption above && isPriceOption below) u fun t =>
      s.lookupRequest t (.watchAdd code above below move)) := congrArg _ (taken _)
  have hdrop : exec (.watchDrop code) s = .next (s.serveTested (some .watchDrop) true u fun t =>
      s.lookupRequest t (.watchDrop code)) := congrArg _ (taken _)
  have addSound : s.manager.state = .running → priced →
      exec add s = .next (s.lookupRequest u (.watchAdd code above below move)) := fun hrunning hpriced => by
    rw [hadd, hpriced.1, hpriced.2, Bool.and_self, State.serveTested_sound hrunning]
  have dropSound : s.manager.state = .running → exec (.watchDrop code) s = .next (s.lookupRequest u (.watchDrop code)) :=
    fun hrunning => by rw [hdrop, State.serveTested_sound hrunning]
  have going : ¬ stopped → s.lookupsStopped = false := fun hgo =>
    eq_false_of_ne_true fun hstop => hgo (s.lookupsStopped_iff.1 hstop)
  have addServed : s.manager.state = .running → ¬ stopped → priced →
      exec add s = .next (s.serveLookup u (.watchAdd code above below move)) := fun hrunning hgo hpriced => by
    rw [addSound hrunning hpriced, State.lookupRequest_served (going hgo)]
  have dropServed : s.manager.state = .running → ¬ stopped →
      exec (.watchDrop code) s = .next (s.serveLookup u (.watchDrop code)) := fun hrunning hgo => by
    rw [dropSound hrunning, State.lookupRequest_served (going hgo)]
  refine ⟨fun hheld => ?held, fun hrunning hbad => ?bad, fun hrunning hstopped => ?waits, fun hrunning hgo => ?served,
    fun hrunning hgo hnone => ?unknown, fun hrunning hgo hfinds => ?found⟩
  case held => rw [hadd, hdrop, State.serveTested_held hheld, State.serveTested_held hheld]; exact ⟨rfl, rfl⟩
  case bad =>
    have hunpriced : (isPriceOption above && isPriceOption below) = false := by
      rw [← Bool.not_eq_true, Bool.and_eq_true]
      exact hbad
    rw [hadd, hunpriced, State.serveTested_bad hrunning]
  case waits =>
    have hstop : s.lookupsStopped = true := s.lookupsStopped_iff.2 hstopped
    refine ⟨fun hpriced => ?_, ?_⟩
    · rw [addSound hrunning hpriced, State.lookupRequest_waits hstop]
      rfl
    · rw [dropSound hrunning, State.lookupRequest_waits hstop]
      rfl
  case served =>
    rw [held_eq, held_eq]
    exact ⟨addServed hrunning hgo, dropServed hrunning hgo⟩
  case unknown =>
    obtain ⟨haddPage, hdropPage⟩ := State.serveLookup_watch_unknown (s := s) (u := u) hnone above below move
    exact ⟨fun hpriced => (addServed hrunning hgo hpriced).trans (congrArg _ haddPage),
      (dropServed hrunning hgo).trans (congrArg _ hdropPage)⟩
  case found =>
    obtain ⟨hlookup, hr⟩ := hfinds
    obtain ⟨haddEdit, hdropEdit⟩ := State.serveLookup_watch_found (s := s) (u := u) hlookup above below move
    have adds := fun hpriced => (addServed hrunning hgo hpriced).trans (congrArg Host.Outcome.next haddEdit)
    have drops := (dropServed hrunning hgo).trans (congrArg Host.Outcome.next hdropEdit)
    exact ⟨fun hpriced hlisted => (adds hpriced).trans (congrArg _ (State.watchAdd_updates hst hr hlisted _ _ _)),
      fun hpriced hnew hroom => (adds hpriced).trans (congrArg _ (State.watchAdd_adds hst hr hnew hroom _ _ _)),
      fun hpriced hnew hfull => (adds hpriced).trans (congrArg _ (State.watchAdd_full hst hr hnew hfull _ _ _)),
      fun hnew => drops.trans (congrArg _ (State.watchDrop_missing hst hr hnew)),
      fun hlisted => drops.trans (congrArg _ (State.watchDrop_drops hst hr hlisted))⟩

end Sys2Proof.Machine
end



section
/-! PROOF. A page's lines: what a completion clears, what follows it, which line is next, and what the lines hold (R129 to R131,
R138, R145 to R148, R154, R155, R158). -/

namespace Sys2Proof.Machine

/-! ### What follows a line (R129, R130, R138) -/

/-- A delivery whose lines clear pending marks (R155). -/
theorem clearsMarks_iff (kind : TransactionKind) :
    clearsMarks kind = true ↔ kind = .routineDelivery ∨ kind = .resumption false := by
  cases kind with
  | resumption reply => cases reply <;> simp [clearsMarks]
  | _ => simp [clearsMarks]

/-- Every page but an alert delivery's may be suspended (R138). -/
theorem suspendable_iff (kind : TransactionKind) : suspendable kind = true ↔ kind ≠ .alertDelivery := by
  cases kind <;> simp [suspendable]

/-- The line's completion clears what the line delivered, and a line gap follows (R129, R131). -/
theorem exec_lineCompletion {s : State} {u : Transaction} {l : Line} {page : Page} {st : Station}
    (hu : s.desk.transaction = some u) (hline : u.output = .line l) (hpage : u.page = some page)
    (hst : s.desk.stations[u.station]? = some st) :
    exec .lineCompletion s =
      .next ((s.withStation u.station (st.lineDelivered u.kind page l.source)).lineGap u page) := by
  rw [← State.modifyStation_eq s u.station st _ hst]
  simp only [exec, execLineCompletion, hu, hline, hpage]

section
variable {s : State} {u : Transaction} {page : Page} {item : List LineField × LineSource × Page}

/-- After the last line END is sent (R129). -/
theorem State.lineGap_ends (h : s.nextItem u.station page = none) :
    s.lineGap u page = s.withTransaction { u with output := .ending false, window := none } := by
  simp only [State.lineGap, h, State.sendNext]

/-- A break seen in REPLY ends the page broken (R130). -/
theorem State.lineGap_breaks (h : s.nextItem u.station page = some item) (hline : s.desk.line = .reply)
    (hattn : s.desk.attn = true) : s.lineGap u page = s.withTransaction { u with output := .ending true } := by
  simp only [State.lineGap, h, hline, hattn, and_self, if_true]

/-- An alert for another station suspends a page that may be suspended while the slot is empty (R138). -/
theorem State.lineGap_suspends {n : Nat} (h : s.nextItem u.station page = some item)
    (hunbroken : ¬ (s.desk.line = .reply ∧ s.desk.attn = true)) (hkind : u.kind ≠ .alertDelivery) (hslot : s.desk.slot = none)
    (hn : s.desk.causingStation u.station = some n) :
    s.lineGap u page = s.withTransaction { u with output := .suspending n } := by
  simp only [State.lineGap, h, if_neg hunbroken, if_pos (And.intro ((suspendable_iff u.kind).2 hkind) hslot), hn]

/-- Otherwise the next line is rendered and sent (R129). -/
theorem State.lineGap_goes (h : s.nextItem u.station page = some item)
    (hunbroken : ¬ (s.desk.line = .reply ∧ s.desk.attn = true))
    (hnone : u.kind = .alertDelivery ∨ s.desk.slot ≠ none ∨ s.desk.causingStation u.station = none) :
    s.lineGap u page = s.withTransaction { u with
      page := some item.2.2, nextLine := u.nextLine + 1, window := none
      output := .line (s.renderLine u.nextLine item.1 item.2.1) } := by
  have hstays : (if suspendable u.kind ∧ s.desk.slot = none then s.desk.causingStation u.station else none) = none := by
    split
    · next hmay =>
      rcases hnone with hkind | hslot | hcausing
      · exact absurd hkind ((suspendable_iff u.kind).1 hmay.1)
      · exact absurd hmay.2 hslot
      · exact hcausing
    · rfl
  simp only [State.lineGap, h, if_neg hunbroken, hstays, State.sendNext_line h]

end

/-- The test of a station that suspends another's page in the manual's words (R138). -/
theorem causes_iff (served n : Nat) (st : Station) :
    (decide (n ≠ served) && decide (st.presence = .attached) && decide (st.alerts ≠ [])) = true ↔
      n ≠ served ∧ st.alerting := by
  simp [Station.alerting, and_assoc]

/-- What a line delivers, by what it was made from (R154, R155, R158). -/
theorem Station.lineDelivered_eq (st : Station) (kind : TransactionKind) (page : Page) (source : LineSource) :
    st.lineDelivered kind page source =
      match source with
      | .header =>
        (match kind, page with
        | .routineDelivery, .watch _ => { st with streamDue := false }
        | _, _ => st)
      | .plain => st
      | .entry r marked =>
        if (kind = .routineDelivery ∨ kind = .resumption false) ∧ marked = false then
          { st with watch := st.watch.map fun e => if e.record = r then { e with pending := false } else e }
        else st
      | .alert a => { st with alerts := st.alerts.filter fun x => x ≠ a } := by
  cases source with
  | header =>
    simp only [Station.lineDelivered, streamPage]
    cases kind with
    | routineDelivery => cases page <;> rfl
    | _ => rfl
  | plain => rfl
  | entry r marked => simp only [Station.lineDelivered, clearsMarks_iff]
  | alert a =>
    have hfilter : (st.alerts.filter fun x => x != a) = st.alerts.filter fun x => x ≠ a :=
      List.filter_congr fun x _ => by simp [bne, BEq.beq]
    simp only [Station.lineDelivered, hfilter]

/-! ### Which line is next (R145 to R148, R155, R158) -/

/-- In a list without one key twice a search by key finds the element of that key. -/
theorem find?_of_nodup_keys {α : Type} {key : α → Nat} {list : List α} (h : (list.map key).Nodup) {a : α} (ha : a ∈ list) :
    list.find? (fun x => decide (key x = key a)) = some a := by
  induction list with
  | nil => cases ha
  | cons x rest ih =>
    obtain ⟨hx, hrest⟩ := List.nodup_cons.1 h
    rcases List.mem_cons.1 ha with rfl | ha
    · simp
    · have hne : ¬ key x = key a := fun he => hx (he ▸ List.mem_map_of_mem ha)
      rw [List.find?_cons_of_neg (by simpa using hne), ih hrest ha]

/-- Fixed prints that are gone from the ring have no line (R147). -/
theorem nextPrint_skip {ring : List Print} {sent : List Nat} (h : ∀ x ∈ sent, ∀ p ∈ ring, p.sequence ≠ x) (left : List Nat) :
    nextPrint ring (sent ++ left) = nextPrint ring left := by
  induction sent with
  | nil => rfl
  | cons x rest ih =>
    obtain ⟨hx, hrest⟩ := List.forall_mem_cons.1 h
    have hgone : ring.find? (fun p => decide (p.sequence = x)) = none :=
      List.find?_eq_none.2 fun p hp => by simpa using hx p hp
    simp only [List.cons_append, nextPrint, hgone, ih hrest]

/-- A fixed print that stands in the ring has its line (R147). -/
theorem nextPrint_here {ring : List Print} (h : (ring.map Print.sequence).Nodup) {p : Print} (hp : p ∈ ring) (left : List Nat) :
    nextPrint ring (p.sequence :: left) = some (p, left) := by
  simp only [nextPrint, find?_of_nodup_keys h hp]

/-- Fixed entries that are gone from the list have no line (R148). -/
theorem nextFixedEntry_skip {watch : List WatchEntry} {sent : List Nat} (h : ∀ x ∈ sent, ∀ e ∈ watch, e.record ≠ x)
    (left : List Nat) : nextFixedEntry watch (sent ++ left) = nextFixedEntry watch left := by
  induction sent with
  | nil => rfl
  | cons x rest ih =>
    obtain ⟨hx, hrest⟩ := List.forall_mem_cons.1 h
    have hgone : watch.find? (fun e => decide (e.record = x)) = none :=
      List.find?_eq_none.2 fun e he => by simpa using hx e he
    simp only [List.cons_append, nextFixedEntry, hgone, ih hrest]

/-- A fixed entry that stands in the list has its line (R148). -/
theorem nextFixedEntry_here {watch : List WatchEntry} (h : (watch.map WatchEntry.record).Nodup) {e : WatchEntry} (he : e ∈ watch)
    (left : List Nat) : nextFixedEntry watch (e.record :: left) = some (e, left) := by
  simp only [nextFixedEntry, find?_of_nodup_keys h he]

section
variable {s : State} {n r : Nat} {q : QuoteRecord} {st : Station}

/-- A station's list is read from its record. -/
theorem State.watchOf_eq (hst : s.desk.stations[n]? = some st) : s.watchOf n = st.watch := by rw [State.watchOf, hst]

/-- A station's alerts are read from its record. -/
theorem State.alertsOf_eq (hst : s.desk.stations[n]? = some st) : s.alertsOf n = st.alerts := by rw [State.alertsOf, hst]

/-- A RECENT page's next line, in terms of its fixed prints (R147). -/
theorem State.nextItem_recent (hr : s.record? r = some q) (left : List Nat) :
    s.nextItem n (.recent r left) = (nextPrint q.ring left).map fun x => (ringLine q x.1, .plain, .recent r x.2) := by
  simp only [State.nextItem, hr]

/-- A WATCH page's next line is its next fixed entry's (R148). -/
theorem State.nextItem_watch (hr : s.record? r = some q) (hst : s.desk.stations[n]? = some st) {e : WatchEntry}
    (he : e.record = r) {left rest : List Nat} (hnext : nextFixedEntry st.watch left = some (e, rest)) :
    s.nextItem n (.watch left) = some (entryLine q e, .entry r false, .watch rest) := by
  simp only [State.nextItem, State.watchOf_eq hst, hnext, he, hr, Option.map_some]

/-- A WATCH page ends after its fixed entries (R148). -/
theorem State.nextItem_watch_none (hst : s.desk.stations[n]? = some st) {left : List Nat}
    (hnext : nextFixedEntry st.watch left = none) : s.nextItem n (.watch left) = none := by
  simp only [State.nextItem, State.watchOf_eq hst, hnext]

/-- A WATCH CHANGES page ends with no pending entry that has had no line (R155). -/
theorem State.nextItem_changes_none (hst : s.desk.stations[n]? = some st) {sent : List Nat}
    (h : ∀ e ∈ st.watch, e.pending = true → e.record ∈ sent) (lines : Nat) : s.nextItem n (.changes sent lines) = none := by
  have hnone : st.watch.find? (fun e => e.pending && decide (e.record ∉ sent)) = none :=
    List.find?_eq_none.2 fun e he => by simpa using h e he
  simp only [State.nextItem, State.watchOf_eq hst, hnone, ite_self]

/-- A WATCH CHANGES page's next line is the first pending entry's that has had none (R155). -/
theorem State.nextItem_changes (hr : s.record? r = some q) (hst : s.desk.stations[n]? = some st) {sent : List Nat} {lines : Nat}
    (hroom : lines < 12) {before later : List WatchEntry} {e : WatchEntry} (hwatch : st.watch = before ++ e :: later)
    (he : e.record = r) (hpending : e.pending = true) (hnew : r ∉ sent)
    (hbefore : ∀ x ∈ before, x.pending = true → x.record ∈ sent) :
    s.nextItem n (.changes sent lines) = some (entryLine q e, .entry r false, .changes (sent ++ [r]) (lines + 1)) := by
  have hskip : before.find? (fun x => x.pending && decide (x.record ∉ sent)) = none :=
    List.find?_eq_none.2 fun x hx => by simpa using hbefore x hx
  have hfound : st.watch.find? (fun x => x.pending && decide (x.record ∉ sent)) = some e := by
    rw [hwatch, List.find?_append, hskip]
    simp [hpending, he, hnew]
  simp only [State.nextItem, State.watchOf_eq hst, hfound, if_neg (Nat.not_le.2 hroom), he, hr, Option.map_some]

/-- An ALERTS page ends with its twelfth line or with the queue (R158). -/
theorem State.nextItem_alerts_none (hst : s.desk.stations[n]? = some st) {count : Nat} (h : 12 ≤ count ∨ st.alerts = []) :
    s.nextItem n (.alerts count) = none := by
  simp only [State.nextItem, State.alertsOf_eq hst]
  split
  · rfl
  · next halerts =>
    rcases h with hfull | hempty
    · exact if_pos hfull
    · rw [hempty] at halerts
      cases halerts

/-- An ALERTS page's next line is the head of the queue's (R158). -/
theorem State.nextItem_alerts (hr : s.record? r = some q) (hst : s.desk.stations[n]? = some st) {count : Nat} {a : Alert}
    {later : List Alert} (hroom : count < 12) (halerts : st.alerts = a :: later) (ha : a.record = r) :
    s.nextItem n (.alerts count) = some (alertLine q a, .alert a, .alerts (count + 1)) := by
  simp only [State.nextItem, State.alertsOf_eq hst, halerts, if_neg (Nat.not_le.2 hroom), ha, hr, Option.map_some]

end

/-! ### What the header and the lines hold (R23, R25, R145 to R148, R158) -/

/-- The net change of a record on a desk line, blank where last or previous close is absent (R25, R145). -/
theorem deskChange_eq (q : QuoteRecord) :
    deskChange q =
      match q.last, q.prevClose with
      | some (last, _), some close =>
        if last = close then .text "UNCH".toList
        else .text ((if close < last then ['+'] else ['−']) ++ priceText q.grid ((last : Int) - (close : Int)).natAbs)
      | _, _ => .text "".toList := by
  simp only [deskChange, netChange]
  cases hlast : q.last with
  | none => rfl
  | some pair =>
    obtain ⟨last, time⟩ := pair
    cases hclose : q.prevClose with
    | none => rfl
    | some close =>
      simp only [blankOr, changeText]
      by_cases hsame : last = close
      · rw [if_pos hsame, if_pos (by omega)]
        rfl
      · have hsign : (0 ≤ (last : Int) - (close : Int)) = (close < last) := propext (by omega)
        rw [if_neg hsame, if_neg (by omega), signText]
        simp only [hsign]

/-- The mark of a bid above the ask (R40, Table 7-3). -/
theorem crossedText_eq (q : QuoteRecord) :
    LineField.text (if crossed q then ['C', 'R', 'O', 'S', 'S', 'E', 'D'] else []) =
      match q.bid, q.ask with
      | some (bid, _), some (ask, _) => if ask < bid then .text "CROSSED".toList else .text "".toList
      | _, _ => .text "".toList := by
  unfold crossed
  cases hbid : q.bid with
  | none => rfl
  | some bid =>
    cases hask : q.ask with
    | none => rfl
    | some ask =>
      by_cases h : ask.1 < bid.1
      · simp only [h, decide_true, if_true]; rfl
      · simp only [h, decide_false, Bool.false_eq_true, if_false]; rfl

/-- A line's text is as many characters as a LINE frame carries (section 10.4). -/
theorem Line.length_text (l : Line) : l.text.length = 40 := by
  simp [Line.text]

/-- Settles O50: the gap by what it finds, the next line by the kind of page, the fields one by one. -/
theorem linesFollowOneAnother : Obligations.LinesFollowOneAnother := by
  refine ⟨?gaps, ?next, ?texts⟩
  case gaps =>
    intro u l page st broken s hu hst clears delivered s1 outputs
    have hdelivered : st.lineDelivered u.kind page l.source = delivered := st.lineDelivered_eq u.kind page l.source
    refine ⟨fun hline hpage => ?_, fun hending => ?_⟩
    · have hexec : exec .lineCompletion s = .next (s1.lineGap u page) := by
        rw [exec_lineCompletion hu hline hpage hst, hdelivered]
      refine ⟨fun hnone => hexec.trans (congrArg _ (State.lineGap_ends hnone)), fun item hitem => ⟨fun hreply hattn => ?_,
        fun hunbroken => ⟨fun n hkind hslot hround => ?_, fun hnone => ?_⟩⟩⟩
      · exact hexec.trans (congrArg _ (State.lineGap_breaks hitem hreply hattn))
      · have hwhole : ¬ (s1.desk.line = .reply ∧ s1.desk.attn = true) := fun h =>
          hunbroken.elim (· h.1) fun hattn => Bool.false_ne_true (hattn.symm.trans h.2)
        have hcausing : s1.desk.causingStation u.station = some n :=
          firstInRound_some (fun m x => causes_iff u.station m x) hround
        exact hexec.trans (congrArg _ (State.lineGap_suspends hitem hwhole hkind hslot hcausing))
      · have hwhole : ¬ (s1.desk.line = .reply ∧ s1.desk.attn = true) := fun h =>
          hunbroken.elim (· h.1) fun hattn => Bool.false_ne_true (hattn.symm.trans h.2)
        have hstays : u.kind = .alertDelivery ∨ s1.desk.slot ≠ none ∨ s1.desk.causingStation u.station = none := by
          refine hnone.imp_right fun h => h.imp_right fun hquiet => firstInRound_none fun m x hx => ?_
          refine eq_false_of_ne_true fun hcauses => ?_
          obtain ⟨hother, halerting⟩ := (causes_iff u.station m x).1 hcauses
          exact (hquiet m x hx).elim hother (· halerting)
        exact hexec.trans (congrArg _ (State.lineGap_goes hitem hwhole hstays))
    · simp only [exec, execEndCompletion, hu, hending]
      rfl
  case next =>
    intro n r k count lines left sent q st s hr hst
    refine ⟨⟨?_, ?_⟩, fun hnodup hgone => ⟨?_, fun p hp => ?_⟩, fun hnodup hgone => ⟨?_, fun e he her => ?_⟩, fun hfull => ?_,
      fun h => State.nextItem_changes_none hst h lines, fun before e later hroom hwatch he hpending hnew hbefore =>
        State.nextItem_changes hr hst hroom hwatch he hpending hnew hbefore, State.nextItem_alerts_none hst,
      fun a later hroom halerts ha => State.nextItem_alerts hr hst hroom halerts ha, rfl, ?_, ?_, rfl, rfl⟩
    · simp only [State.nextItem, hr]
    · simp only [State.nextItem, hr]
    · have hnone := nextPrint_skip hgone []
      rw [List.append_nil] at hnone
      rw [State.nextItem_recent hr, hnone]
      rfl
    · rw [State.nextItem_recent hr, nextPrint_skip hgone, nextPrint_here hnodup hp]
      rfl
    · have hnone := nextFixedEntry_skip hgone []
      rw [List.append_nil] at hnone
      exact State.nextItem_watch_none hst hnone
    · subst her
      exact State.nextItem_watch hr hst rfl ((nextFixedEntry_skip hgone _).trans (nextFixedEntry_here hnodup he left))
    · simp only [State.nextItem, if_pos hfull]
    · simp only [State.openPage, hr]
    · simp only [State.openPage, State.watchOf_eq hst]
  case texts =>
    intro q p e a r lines left sent kind status mode interval l s two time named price sized change tick crossedMark reason monitor
      direction state why marker last now asked answered
    have hprice : ∀ x, deskPrice q x = price x := fun x => by cases x <;> rfl
    have hsized : ∀ side, deskSize side = sized side := fun side => by cases side <;> rfl
    have hchange : deskChange q = change := deskChange_eq q
    have htick : LineField.text (tickText q.tick) = tick := by simp only [tick]; cases q.tick <;> rfl
    have hcrossed : LineField.text (if crossed q then ['C', 'R', 'O', 'S', 'S', 'E', 'D'] else []) = crossedMark :=
      crossedText_eq q
    have hhalted : LineField.text (if q.halted.isSome then ['H', 'A', 'L', 'T', 'E', 'D'] else ['N', 'O', 'R', 'M', 'A', 'L']) =
        if q.halted = none then named "NORMAL" else named "HALTED" := by
      cases q.halted <;> rfl
    have hreason : LineField.text (blankOr reasonText q.halted) = reason := by
      simp only [reason]
      cases q.halted with
      | none => rfl
      | some why => cases why <;> rfl
    have hmonitor : LineField.text (monitorText q.monitor.state) = monitor := by
      simp only [monitor]; cases q.monitor.state <;> rfl
    have hdirection : blankOr directionText q.monitor.direction = direction.toList := by
      simp only [direction]
      cases q.monitor.direction with
      | none => rfl
      | some d => cases d <;> rfl
    have hlastTime : LineField.text (blankOr (fun last => timeText last.2) q.last) =
        match q.last with | none => named "" | some (_, at_) => time at_ := by
      cases q.last <;> rfl
    have hstate : LineField.text (stateMark q) = state := by
      simp only [stateMark, state, hdirection, Monitor.moving_iff, Option.isSome_iff_ne_none]
      split
      · rfl
      · split <;> rfl
    have hwhy : LineField.text (alertText a.reason) = why := by simp only [why]; cases a.reason <;> rfl
    have hmarker : LineField.text (ringMarker p.condition) = marker := by simp only [marker]; cases p.condition <;> rfl
    have hmarks : ∀ level : Option Nat, level.isSome = decide (level ≠ none) := fun level => by cases level <;> rfl
    refine ⟨⟨?_, ?_, rfl, ?_, ?_, ?_⟩, ?_, ?_, ?_, fun hr => ?_, rfl, rfl, rfl, rfl, rfl, rfl, rfl, rfl, l.length_text, rfl, rfl,
      fun _ => ⟨rfl, rfl⟩, fun first second third => ?_⟩
    · simp only [quoteLine, hprice, hchange, htick]; rfl
    · simp only [quoteLine, hprice, hsized, hcrossed]
    · simp only [quoteLine, hprice]
    · simp only [quoteLine, hprice, hhalted, hreason]
    · simp only [quoteLine, hmonitor, hdirection, hlastTime]; rfl
    · simp only [ringLine, hmarker]
    · simp only [entryLine, hprice, hchange, htick, hstate, hmarks]; rfl
    · simp only [alertLine, hprice, hwhy]
    · simp only [State.headerFields, State.codeOf, hr]
      exact ⟨rfl, rfl⟩
    · simp only [Line.text, joined, List.append_assoc]

end Sys2Proof.Machine
end
